-- ==== Sys2Proof/Word.lean ====
section
/-! DEFINITION. The word types of the block (00_scope.md R7, R9): all values are unsigned, bit 0 is the least
significant, and nothing is ever sign-extended. -/

namespace Sys2Proof

/-- A payload byte, 8 bits (00_scope.md R7). -/
abbrev Byte := BitVec 8

/-- The width of the CRC register and of a stored checksum, 16 bits (00_scope.md R7). -/
abbrev Half := BitVec 16

/-- A command word and the STATUS view, 32 bits (30_encoding.md R38; 10_state.md R21). -/
abbrev Word := BitVec 32

end Sys2Proof
end

