-- ==== Sys2Proof/Config.lean ====
section
/-! DEFINITION. What is fixed for the block: the parameters of 00_scope.md R7, and the two parameters the spec leaves
open (92_eei_decisions.md, "Open parameters"), which have no body. -/

namespace Sys2Proof.Config

/-- `POLY`: the feedback constant, x^16 + x^12 + x^5 + 1 with the x^16 term implicit (00_scope.md R7). -/
def poly : Half := 0x1021#16

/-- `INIT`: the initial register value (00_scope.md R7). -/
def initValue : Half := 0xFFFF#16

/-- `MAXLEN`: the packet record's payload capacity (00_scope.md R7). It bounds the packet, never the engine
(40_crc_engine.md R51, 90_conflicts.md C4). -/
def maxLen : Nat := 50

/-- `BYTE_LATENCY` less one: any value is allowed, so nothing is said about it (70_reset_and_hazards.md R89).
No rule reads it; the machine itself admits a latency of its own for every command (assumption 3). -/
opaque byteLatencyLessOne : Nat

/-- `BYTE_LATENCY`, any finite value of at least 1 (92_eei_decisions.md, "Open parameters"). -/
def byteLatency : Nat := byteLatencyLessOne + 1

/-- `VIEW_BASE`: where a platform maps the port and the views, if it does (20_memory.md R34). No rule reads it. -/
opaque viewBase : Nat

end Sys2Proof.Config
end

