-- ==== Sys2Proof/Syntax.lean ====
section
/-! DEFINITION. The block's commands, one constructor per row of spec/opcode_table.json; the host's packet record
(20_memory.md R26); and the assembler's lines as data (30_encoding.md R46). -/

namespace Sys2Proof

/-- The four commands (30_encoding.md R39). An illegal word is no command: the decoder rejects it by name. -/
inductive Instr where
  /-- NOP: an idle word (40_crc_engine.md R53). -/
  | nop
  /-- INIT: start a computation (40_crc_engine.md R54). -/
  | init
  /-- BYTE d: feed one byte (40_crc_engine.md R55). -/
  | byte (d : Byte)
  /-- CHECK s: compare with a stored checksum (41_detector.md R63). -/
  | check (s : Half)
  deriving DecidableEq, Repr

/-- The packet record, held by the host (20_memory.md R26). Its bytes past `length` may hold anything (R28): the field
is a full buffer of 50 bytes, and no rule reads the tail. -/
structure Packet where
  id : Byte
  length : Byte
  payload : Vector Byte 50
  storedChecksum : Half
  deriving DecidableEq, Repr

/-- One line of assembler source after reading its text (30_encoding.md R46). A literal is the number that was written,
in range or not: whether it fits is the assembler's check. -/
inductive AsmLine where
  | blank
  | nop
  | init
  | byte (imm8 : Nat)
  | check (imm16 : Nat)
  | word (imm32 : Nat)
  | crc (imm8s : List Nat)
  | verify (p : Packet)
  deriving DecidableEq, Repr

end Sys2Proof
end

