-- ==== Sys2Proof/WellFormed.lean ====
section
/-! DEFINITION. Which instructions, packets and assembler lines are well formed. -/

namespace Sys2Proof

/-- Every operand fits its field (30_encoding.md R40, R41). The operand types are exactly the fields, so every
instruction passes; the numeric ranges are checked where numbers are read, in `AsmLine.wellFormed`. -/
def Instr.wellFormed : Instr → Bool
  | .nop => true
  | .init => true
  | .byte d => decide (d.toNat < 2 ^ 8)
  | .check s => decide (s.toNat < 2 ^ 16)

/-- A packet is well formed when `length ≤ 50` (20_memory.md R28; 41_detector.md R66). -/
def Packet.wellFormed (p : Packet) : Bool := decide (p.length.toNat ≤ Config.maxLen)

/-- The literal ranges of 30_encoding.md R46, and R66 for VERIFY. -/
def AsmLine.wellFormed : AsmLine → Bool
  | .blank => true
  | .nop => true
  | .init => true
  | .byte n => decide (n < 2 ^ 8)
  | .check n => decide (n < 2 ^ 16)
  | .word n => decide (n < 2 ^ 32)
  | .crc ns => ns.all (fun n => decide (n < 2 ^ 8))
  | .verify p => p.wellFormed

end Sys2Proof
end

