-- ==== Sys2Proof/Decode.lean ====
section
/-! DEFINITION. The decoder, total on every 32-bit word and rejecting by name (30_encoding.md R43, R44), and the
encoder written from the same format (R38 to R42). -/

namespace Sys2Proof

/-- Why a word spells no command: the four cases of 30_encoding.md R44. -/
inductive IllegalWord where
  /-- `OP ≥ 0x04`. -/
  | unknownOpcode (op : Byte)
  /-- `OP ≤ 0x03` with `RSV != 0`. -/
  | reservedBitsSet
  /-- NOP or INIT with `OPND != 0`. -/
  | operandNotZero
  /-- BYTE with `OPND[15:8] != 0`. -/
  | byteHighBitsSet
  deriving DecidableEq, Repr

/-- `OP`, bits [31:24] (30_encoding.md R38). -/
def opField (w : Word) : Byte := w.extractLsb' 24 8

/-- `RSV`, bits [23:16] (30_encoding.md R38). -/
def rsvField (w : Word) : Byte := w.extractLsb' 16 8

/-- `OPND`, bits [15:0] (30_encoding.md R38); the operand of CHECK, taken whole (R41). -/
def opndField (w : Word) : Half := w.extractLsb' 0 16

/-- `cmd[7:0]`, the operand of BYTE (30_encoding.md R40). -/
def byteField (w : Word) : Byte := w.extractLsb' 0 8

/-- `cmd[15:8]`, which must be 0x00 in a BYTE word (30_encoding.md R40). -/
def byteHighField (w : Word) : Byte := w.extractLsb' 8 8

/-- The opcode of each command (30_encoding.md R39). -/
def opcodeOf : Instr → Byte
  | .nop => 0x00#8
  | .init => 0x01#8
  | .byte _ => 0x02#8
  | .check _ => 0x03#8

/-- The name under which a word that spells no command is rejected (30_encoding.md R44). -/
def illegalReason (w : Word) : IllegalWord :=
  if 0x04#8 ≤ opField w then .unknownOpcode (opField w)
  else if rsvField w ≠ 0x00#8 then .reservedBitsSet
  else if opField w = 0x02#8 then .byteHighBitsSet
  else .operandNotZero

/-- `Decode` (30_encoding.md R43), clause by clause. -/
def decode (w : Word) : Except IllegalWord Instr :=
  if w = 0x00000000#32 then .ok .nop
  else if w = 0x01000000#32 then .ok .init
  else if w &&& 0xFFFFFF00#32 = 0x02000000#32 then .ok (.byte (byteField w))
  else if w &&& 0xFFFF0000#32 = 0x03000000#32 then .ok (.check (opndField w))
  else .error (illegalReason w)

/-- A word put together from its three fields (30_encoding.md R38). -/
def packWord (op rsv : Byte) (opnd : Half) : Word := op ++ rsv ++ opnd

/-- The word of a command (30_encoding.md R38 to R42). -/
def encode : Instr → Word
  | .nop => packWord (opcodeOf .nop) 0x00#8 0x0000#16
  | .init => packWord (opcodeOf .init) 0x00#8 0x0000#16
  | .byte d => packWord (opcodeOf (.byte d)) 0x00#8 (0x00#8 ++ d)
  | .check s => packWord (opcodeOf (.check s)) 0x00#8 s

/-- The command word whose bits the opcode table numbers as `w`, the bits above `nbits` being 0. -/
def tableWord (nbits w : Nat) : Word := BitVec.ofNat 32 (w % 2 ^ nbits)

/-- The instruction the decoder reads from a table row's word. A command is one 32-bit word and has no other length
(30_encoding.md R38). -/
def decodeTableWord (nbits w : Nat) : Option Instr :=
  if nbits ≤ 32 then (decode (tableWord nbits w)).toOption else none

end Sys2Proof
end

