-- ==== Sys2Proof/Machine/State.lean ====
section
/-! DEFINITION. The machine's state as plain data: the six state elements of 10_state.md R15 to R20, and the model's own
two fields (the coming clock edges, and whether the block has been reset). -/

namespace Sys2Proof.Machine

/-- One rising edge of `clk` (10_state.md R24): the input pins there, and whether the block is ready for a command
there. `blockReady` is the spec's open point (R24, 70_reset_and_hazards.md R89): nothing constrains it. -/
structure Edge where
  /-- `rst`: synchronous reset, active high. -/
  rst : Bool
  /-- `cmd_valid`: the host offers `cmd_data`. -/
  cmdValid : Bool
  /-- `cmd_data`: the command word. -/
  cmdData : Word
  /-- Whether the implementation can accept a command at this edge; `cmd_ready` is this, and 0 while `rst = 1`. -/
  blockReady : Bool
  deriving DecidableEq, Repr

/-- What stops the model. The hardware itself never stops (60_exceptions.md R74). -/
inductive Fault where
  /-- Raised by a view read and by consuming a command before the first reset (70_reset_and_hazards.md R83,
  93_implementation_defined.md I1). Safe: the model stops where the hardware has values nobody knows. -/
  | beforeReset
  /-- Given by `endOfRun` for a final state with `err = 1` (60_exceptions.md R75): a reading of the run, never an answer
  of a step. Safe: a claim about the run is given up. -/
  | illegalCommand
  deriving DecidableEq, Repr

/-- What the model refuses to answer. -/
inductive Refusal where
  /-- Raised by an arm of `exec` for an instruction without a meaning; no arm does. Safe. -/
  | notModelled (mnemonic : String)
  /-- Raised by `readVerdict` with `vld = 0` (70_reset_and_hazards.md R87, I6). Safe: no verdict is reported. -/
  | noVerdict
  /-- Raised by `isCorrupted` and by VERIFY for a packet with `length > 50` (41_detector.md R66, I4). Safe. -/
  | illFormedPacket
  /-- Raised by `computeChecksumOf`, and by `sealPacket` through it, for a `length` beyond the buffer
  (40_crc_engine.md R49, I3). Safe. -/
  | lengthBeyondBuffer
  /-- Raised by the assembler for a literal out of range (30_encoding.md R46). Safe. -/
  | literalOutOfRange
  /-- Raised by the assembler for a line its grammar does not give (30_encoding.md R46). Safe. -/
  | badLine
  /-- Raised by the assembler for `VERIFY` of a packet name nobody gave it (30_encoding.md R46, assumption 8). Safe. -/
  | unknownPacket
  deriving DecidableEq, Repr

/-- The block's state. -/
structure State where
  /-- The CRC register (10_state.md R15). -/
  crc : Half
  /-- `corrupted` holds the verdict of a CHECK and no INIT or BYTE has run since (10_state.md R16). -/
  vld : Bool
  /-- The detector's verdict (10_state.md R17). -/
  corrupted : Bool
  /-- The operand of the most recent CHECK (10_state.md R18). -/
  stored : Half
  /-- The sticky error bit (10_state.md R19). -/
  err : Bool
  /-- The command index: words consumed since reset (10_state.md R20). -/
  cix : Nat
  /-- MODEL's own: a reset edge has been taken. While it is false the six fields above mean nothing
  (70_reset_and_hazards.md R83, assumption 2). -/
  wasReset : Bool
  /-- MODEL's own: the clock edges still to come, the next one first (10_state.md R23, R24, assumption 1). -/
  edges : List Edge
  deriving DecidableEq, Repr

/-- The machine right after reset (70_reset_and_hazards.md R83), with no edge listed (assumption 1). -/
def State.reset : State where
  crc := 0xFFFF#16
  vld := false
  corrupted := false
  stored := 0x0000#16
  err := false
  cix := 0
  wasReset := true
  edges := []

end Sys2Proof.Machine
end

