-- ==== Sys2Proof/Machine/Ops.lean ====
section
/-! DEFINITION. The named operations on the state that the commands share, raising the block's one exception among
them (60_exceptions.md R73), and sequencing of outcomes. The block has no memory (20_memory.md R27), so no operation
here is one. -/

namespace Sys2Proof.Machine

/-- `cix <- cix + 1`: every consumed word does this, and nothing else moves `cix` (10_state.md R20). -/
def advance (s : State) : State := { s with cix := s.cix + 1 }

/-- `crc <- v` (10_state.md R15). -/
def setCrc (v : Half) (s : State) : State := { s with crc := v }

/-- `stored <- v` (10_state.md R18). -/
def latchStored (v : Half) (s : State) : State := { s with stored := v }

/-- `raise IllegalCommand(cmd)` (60_exceptions.md R73): `err <- 1` and `cix <- cix + 1`. The word is not recorded, nothing
is saved and there is no vector (R78), so there is no return from it either. -/
def raiseIllegal (_cmd : Word) (s : State) : State := advance { s with err := true }

/-- A rising edge with `rst = 1` (70_reset_and_hazards.md R83): every element takes its reset value. It affects nothing
outside the block (R84): the coming edges stay. -/
def applyReset (s : State) : State := { State.reset with edges := s.edges }

/-- Go on with `f` from the next state of `o`, if it has one. -/
def andThen (o : Host.Outcome State Fault Refusal) (f : State → Host.Outcome State Fault Refusal) :
    Host.Outcome State Fault Refusal :=
  match o with
  | .next s => f s
  | .fault r => .fault r
  | .refused r => .refused r

end Sys2Proof.Machine
end

