-- ==== Sys2Proof/Machine/Operands.lean ====
section
/-! DEFINITION. How an operand enters the engine (00_scope.md R10; 30_encoding.md R40). CHECK's operand is taken whole and
needs no assembly (R41); NOP and INIT have none (R42). -/

namespace Sys2Proof.Machine

/-- `zext_16(d) << 8`: the byte in the high octet, no bit of it lost (00_scope.md R10). -/
def highOctet (d : Byte) : Half := d.setWidth 16 <<< 8

/-- `r[15:8]`. -/
def highByte (r : Half) : Byte := r.extractLsb' 8 8

/-- `r[7:0]`. -/
def lowByte (r : Half) : Byte := r.extractLsb' 0 8

end Sys2Proof.Machine
end

