-- ==== Sys2Proof/Machine/Flags.lean ====
section
/-! DEFINITION. The flag computations: the verdict pair `vld` and `corrupted` (10_state.md R16, R17). The sticky `err` is
set by `raiseIllegal` alone. -/

namespace Sys2Proof.Machine

/-- The comparator: `(crc != s) ? 1 : 0`, exact 16-bit inequality (41_detector.md R63). -/
def verdictOf (crc s : Half) : Bool := decide (crc ≠ s)

/-- CHECK's flags: `corrupted <- v`, `vld <- 1` (41_detector.md R63). -/
def setVerdict (v : Bool) (s : State) : State := { s with corrupted := v, vld := true }

/-- INIT's and BYTE's flags: `vld <- 0`, `corrupted <- 0` (10_state.md R16, R17). -/
def clearVerdict (s : State) : State := { s with vld := false, corrupted := false }

end Sys2Proof.Machine
end

