-- ==== Sys2Proof/Machine/Engine.lean ====
section
/-! DEFINITION. The meanings of the engine's commands: NOP, INIT and BYTE (40_crc_engine.md R53 to R55). They never raise an
exception (60_exceptions.md R73, R76). -/

namespace Sys2Proof.Machine

/-- NOP (40_crc_engine.md R53). -/
def execNop (s : State) : Host.Outcome State Fault Refusal := .next (advance s)

/-- INIT (40_crc_engine.md R54). -/
def execInit (s : State) : Host.Outcome State Fault Refusal :=
  .next (advance (clearVerdict (setCrc Config.initValue s)))

/-- BYTE d (40_crc_engine.md R55): the eight bit steps are one indivisible change. -/
def execByte (d : Byte) (s : State) : Host.Outcome State Fault Refusal :=
  .next (advance (clearVerdict (setCrc (byteStep s.crc d) s)))

end Sys2Proof.Machine
end

