-- ==== Sys2Proof/Machine/Detector.lean ====
section
/-! DEFINITION. The meaning of CHECK (41_detector.md R63) and the packet-level contract (R64, R66), which is the host's. -/

namespace Sys2Proof.Machine

/-- CHECK v (41_detector.md R63): `crc` is read before anything is written, and not written (R71). -/
def execCheck (v : Half) (s : State) : Host.Outcome State Fault Refusal :=
  .next (advance (latchStored v (setVerdict (verdictOf s.crc v) s)))

/-- The bytes of a packet that are ever sent: `payload[0 .. length-1]` (20_memory.md R28). -/
def packetBytes (p : Packet) : List Byte := p.payload.toList.take p.length.toNat

/-- `IsCorrupted` (41_detector.md R64), refused for an ill-formed packet (R66). -/
def isCorrupted (p : Packet) : Except Refusal Bool :=
  if p.wellFormed = true then .ok (verdictOf (computeChecksum (packetBytes p)) p.storedChecksum)
  else .error .illFormedPacket

/-- The producer's last act: compute the checksum of the first `length` bytes and store it (20_memory.md R26). It is
`computeChecksum(payload, length)`, so a `length` beyond the buffer of 50 is refused as R49 and I3 say (DEDUCED,
assumption 7). -/
def sealPacket (p : Packet) : Except Refusal Packet :=
  match computeChecksumOf p.payload.toList p.length.toNat with
  | .ok c => .ok { p with storedChecksum := c }
  | .error r => .error r

/-- Two byte sequences XORed byte by byte; the second counts as 0x00 past its end. -/
def xorBytes : List Byte → List Byte → List Byte
  | [], _ => []
  | x :: xs, [] => x :: xs
  | x :: xs, y :: ys => (x ^^^ y) :: xorBytes xs ys

theorem xorBytes_length (xs ys : List Byte) : (xorBytes xs ys).length = xs.length := by
  induction xs generalizing ys with
  | nil => rfl
  | cons x xs ih =>
    cases ys with
    | nil => rfl
    | cons y ys => simp only [xorBytes, List.length_cons, ih]

/-- The packet with its payload XORed with the error pattern `e`, from byte 0 on (41_detector.md R68). -/
def xorPayload (p : Packet) (e : List Byte) : Packet :=
  { p with payload := ⟨(xorBytes p.payload.toList e).toArray, by simp [xorBytes_length]⟩ }

/-- Bit `k` of a byte stream as the register meets it: byte k/8, its bit 7 first (20_memory.md R29, R30). -/
def streamBit (e : List Byte) (k : Nat) : Bool := (e.getD (k / 8) 0x00#8).getLsbD (7 - k % 8)

/-- How many bits of the stream are 1. -/
def streamWeight (e : List Byte) : Nat := ((List.range (8 * e.length)).filter (streamBit e)).length

end Sys2Proof.Machine
end

