-- ==== Sys2Proof/Machine/Views.lean ====
section
/-! DEFINITION. The two read-only views (10_state.md R21), their output ports (R24), and the host's reads of them. A read
is a function of the state, so it changes nothing (20_memory.md R32). -/

namespace Sys2Proof.Machine

/-- STATUS (10_state.md R21): {0, err, corrupted, vld, crc}; bits [31:19] are hardwired 0. -/
def status (s : State) : Word :=
  0#13 ++ BitVec.ofBool s.err ++ BitVec.ofBool s.corrupted ++ BitVec.ofBool s.vld ++ s.crc

/-- STORED (10_state.md R21). -/
def storedOut (s : State) : Half := s.stored

/-- The observation a claim may state: (STATUS, STORED) (10_state.md R25). -/
def observe (s : State) : Word × Half := (status s, storedOut s)

/-- The host reads STATUS; before the first reset that faults (70_reset_and_hazards.md R83). -/
def readStatus (s : State) : Host.Outcome Word Fault Refusal :=
  if s.wasReset = true then .next (status s) else .fault .beforeReset

/-- The host reads STORED; before the first reset that faults (70_reset_and_hazards.md R83). -/
def readStored (s : State) : Host.Outcome Half Fault Refusal :=
  if s.wasReset = true then .next (storedOut s) else .fault .beforeReset

/-- The host reads the verdict, STATUS[17], which is one only while STATUS[16] = 1 (70_reset_and_hazards.md R87;
93_implementation_defined.md I6). `true` means corrupted. -/
def readVerdict (s : State) : Host.Outcome Bool Fault Refusal :=
  if s.wasReset = true then
    if (status s).getLsbD 16 = true then .next ((status s).getLsbD 17) else .refused .noVerdict
  else .fault .beforeReset

end Sys2Proof.Machine
end

