-- ==== Sys2Proof/Machine/Ports.lean ====
section
/-! DEFINITION. The command port and the clock: what one rising edge of `clk` does (10_state.md R24; 70_reset_and_hazards.md
R83, R84). -/

namespace Sys2Proof.Machine

/-- `cmd_ready` at an edge: the block's readiness, and 0 while `rst = 1` (10_state.md R24; 70_reset_and_hazards.md R84). -/
def cmdReady (e : Edge) : Bool := e.blockReady && !e.rst

/-- Whether a command is consumed at an edge: `rst = 0`, `cmd_valid = 1` and `cmd_ready = 1` (10_state.md R24). -/
def accepted (e : Edge) : Bool := !e.rst && e.cmdValid && cmdReady e

/-- Consuming a word: its command's own rule, or R73 if it spells none, never both (60_exceptions.md R79). -/
def consume (w : Word) (s : State) : Host.Outcome State Fault Refusal :=
  match decode w with
  | .ok i => exec i s
  | .error _ => .next (raiseIllegal w s)

/-- One rising edge with the pins `e` (10_state.md R24). Reset dominates (70_reset_and_hazards.md R84). DESIGN CHOICE
(assumption 14): a command takes its whole effect at the edge that consumes it, however many cycles it then occupies, so
the views show it on the busy edges after that. An edge that consumes nothing leaves the state alone (60_exceptions.md
R81). A command consumed before the first reset reads a state
that is not there, and faults (93_implementation_defined.md I1). -/
def clockEdge (e : Edge) (s : State) : Host.Outcome State Fault Refusal :=
  if e.rst = true then .next (applyReset s)
  else if accepted e = true then
    if s.wasReset = true then consume e.cmdData s else .fault .beforeReset
  else .next s

/-- The next listed edge happens. With none listed the host is quiet (`rst = 0`, `cmd_valid = 0`), and the block holds
its state (60_exceptions.md R81; 70_reset_and_hazards.md R90; assumption 1). -/
def takeEdge (s : State) : Host.Outcome State Fault Refusal :=
  match s.edges with
  | [] => .next s
  | e :: rest => clockEdge e { s with edges := rest }

/-- The edge at which the host offers `w` and the block takes it. -/
def offer (w : Word) : Edge := { rst := false, cmdValid := true, cmdData := w, blockReady := true }

/-- An edge at which the host offers `w` and the block is not ready: `w` stays pending at the host. -/
def offerUnready (w : Word) : Edge := { rst := false, cmdValid := true, cmdData := w, blockReady := false }

/-- An edge with `rst = 1`. -/
def resetEdge : Edge := { rst := true, cmdValid := false, cmdData := 0#32, blockReady := false }

/-- The next edge consumes `w`, before the edges listed already. -/
def offerNext (w : Word) (s : State) : State := { s with edges := offer w :: s.edges }

end Sys2Proof.Machine
end

