-- ==== Sys2Proof/Machine/Step.lean ====
section
/-! DEFINITION. The step: one rising edge of `clk`. -/

namespace Sys2Proof.Machine

/-- One rising edge of `clk` (10_state.md R24); a consumed command completes in it (assumption 14). -/
def step (s : State) : Host.Outcome State Fault Refusal := takeEdge s

/-- `s` with a table row's word offered at the very next edge, the block ready for it (assumption 5). A block that was
never reset runs no command (93_implementation_defined.md I1), and that is left as it is. -/
def State.withFetchWord (s : State) (nbits w : Nat) : State := offerNext (tableWord nbits w) s

end Sys2Proof.Machine
end

