-- ==== Sys2Proof/Machine/Assembler.lean ====
section
/-! DEFINITION. The assembler's commands and pseudo-commands, which the host issues (30_encoding.md R46). -/

namespace Sys2Proof.Machine

/-- `CRC b0, ..., b(n-1)`: INIT, then one BYTE per byte (30_encoding.md R46). -/
def crcCommands (b : List Byte) : List Instr := .init :: b.map Instr.byte

/-- `VERIFY p`: INIT, the packet's bytes in index order, CHECK (30_encoding.md R46; 41_detector.md R65). -/
def verifyCommands (p : Packet) : List Instr :=
  crcCommands (packetBytes p) ++ [.check p.storedChecksum]

/-- The words of a list of commands. -/
def wordsOf (is : List Instr) : List Word := is.map encode

/-- One line: its words, or a refusal. A literal out of range is refused, never truncated, and VERIFY of an ill-formed
packet is refused before any word is issued (30_encoding.md R46; 41_detector.md R66). -/
def assemble (l : AsmLine) : Except Refusal (List Word) :=
  if l.wellFormed = true then
    match l with
    | .blank => .ok []
    | .nop => .ok (wordsOf [.nop])
    | .init => .ok (wordsOf [.init])
    | .byte n => .ok (wordsOf [.byte (BitVec.ofNat 8 n)])
    | .check n => .ok (wordsOf [.check (BitVec.ofNat 16 n)])
    | .word n => .ok [BitVec.ofNat 32 n]
    | .crc ns => .ok (wordsOf (crcCommands (ns.map (BitVec.ofNat 8))))
    | .verify p => .ok (wordsOf (verifyCommands p))
  else
    match l with
    | .verify _ => .error .illFormedPacket
    | _ => .error .literalOutOfRange

/-- A program: the words of its lines, in order; one refused line refuses it. -/
def assembleAll : List AsmLine → Except Refusal (List Word)
  | [] => .ok []
  | l :: ls =>
    match assemble l, assembleAll ls with
    | .ok ws, .ok vs => .ok (ws ++ vs)
    | .error r, _ => .error r
    | .ok _, .error r => .error r

end Sys2Proof.Machine
end

