-- ==== Sys2Proof/Machine/AsmText.lean ====
section
/-! DEFINITION. Reading assembler text (30_encoding.md R46), as lists of characters. What R46's grammar leaves open (white
space, the spelling of a packet) is assumption 8. -/

namespace Sys2Proof.Machine

/-- The packets a program may name in `VERIFY`. -/
abbrev PacketTable := List (List Char × Packet)

/-- Blank characters between tokens. -/
def isBlank (c : Char) : Bool := c = ' ' || c = '\t' || c = '\r'

/-- A finished token, if one was begun; `cur` holds it backwards. -/
def flushToken (cur : List Char) : List (List Char) := if cur = [] then [] else [cur.reverse]

/-- The tokens of a line: runs of characters between blanks, and each comma by itself. -/
def tokens : List Char → List Char → List (List Char)
  | [], cur => flushToken cur
  | c :: cs, cur =>
    if isBlank c = true then flushToken cur ++ tokens cs []
    else if c = ',' then flushToken cur ++ [','] :: tokens cs []
    else tokens cs (c :: cur)

/-- A decimal digit's value. -/
def decDigit (c : Char) : Option Nat := if '0' ≤ c ∧ c ≤ '9' then some (c.toNat - 48) else none

/-- A hexadecimal digit's value, in either case. -/
def hexDigit (c : Char) : Option Nat :=
  if '0' ≤ c ∧ c ≤ '9' then some (c.toNat - 48)
  else if 'a' ≤ c ∧ c ≤ 'f' then some (c.toNat - 87)
  else if 'A' ≤ c ∧ c ≤ 'F' then some (c.toNat - 55)
  else none

/-- A number's digits in a base, on top of what was read before them. -/
def readDigits (base : Nat) (digit : Char → Option Nat) : List Char → Nat → Option Nat
  | [], n => some n
  | c :: cs, n =>
    match digit c with
    | some k => readDigits base digit cs (base * n + k)
    | none => none

/-- A decimal or 0x-hex literal, of any size (30_encoding.md R46). -/
def readLiteral : List Char → Option Nat
  | [] => none
  | '0' :: 'x' :: [] => none
  | '0' :: 'x' :: c :: cs => readDigits 16 hexDigit (c :: cs) 0
  | c :: cs => readDigits 10 decDigit (c :: cs) 0

/-- `imm8` items separated by commas, or nothing at all (30_encoding.md R46, CRC). -/
def readItems : List (List Char) → Option (List Nat)
  | [] => some []
  | [t] => (readLiteral t).map (fun n => [n])
  | t :: [','] :: u :: ts =>
    match readLiteral t, readItems (u :: ts) with
    | some n, some ns => some (n :: ns)
    | _, _ => none
  | _ :: _ :: _ => none

/-- The packet of a name, letter for letter. -/
def findPacket : PacketTable → List Char → Option Packet
  | [], _ => none
  | (n, p) :: rest, name => if n = name then some p else findPacket rest name

/-- A literal operand made into a line, or a line the grammar does not give. -/
def literalLine (f : Nat → AsmLine) (t : List Char) : Except Refusal AsmLine :=
  match readLiteral t with
  | some n => .ok (f n)
  | none => .error .badLine

/-- A command's name and its operand tokens, made into a line (30_encoding.md R46). -/
def readCommand (table : PacketTable) (name : List Char) (args : List (List Char)) : Except Refusal AsmLine :=
  if name = ['N', 'O', 'P'] then
    match args with
    | [] => .ok .nop
    | _ => .error .badLine
  else if name = ['I', 'N', 'I', 'T'] then
    match args with
    | [] => .ok .init
    | _ => .error .badLine
  else if name = ['B', 'Y', 'T', 'E'] then
    match args with
    | [t] => literalLine .byte t
    | _ => .error .badLine
  else if name = ['C', 'H', 'E', 'C', 'K'] then
    match args with
    | [t] => literalLine .check t
    | _ => .error .badLine
  else if name = ['.', 'W', 'O', 'R', 'D'] then
    match args with
    | [t] => literalLine .word t
    | _ => .error .badLine
  else if name = ['C', 'R', 'C'] then
    match readItems args with
    | some ns => .ok (.crc ns)
    | none => .error .badLine
  else if name = ['V', 'E', 'R', 'I', 'F', 'Y'] then
    match args with
    | [t] =>
      match findPacket table t with
      | some p => .ok (.verify p)
      | none => .error .unknownPacket
    | _ => .error .badLine
  else .error .badLine

/-- A line of text: what stands before `;`, its mnemonic in either case (30_encoding.md R46). -/
def readLine (table : PacketTable) (cs : List Char) : Except Refusal AsmLine :=
  match tokens (cs.takeWhile (fun c => c ≠ ';')) [] with
  | [] => .ok .blank
  | m :: args => readCommand table (m.map Char.toUpper) args

/-- The lines of a text; `cur` holds the line begun, backwards. -/
def splitLines : List Char → List Char → List (List Char)
  | [], cur => [cur.reverse]
  | c :: cs, cur => if c = '\n' then cur.reverse :: splitLines cs [] else splitLines cs (c :: cur)

/-- The lines of a program's text, read in order; one bad line refuses it. -/
def readLines (table : PacketTable) : List (List Char) → Except Refusal (List AsmLine)
  | [] => .ok []
  | cs :: rest =>
    match readLine table cs, readLines table rest with
    | .ok l, .ok ls => .ok (l :: ls)
    | .error r, _ => .error r
    | .ok _, .error r => .error r

/-- A program's text made into words (30_encoding.md R46). -/
def assembleText (table : PacketTable) (cs : List Char) : Except Refusal (List Word) :=
  match readLines table (splitLines cs []) with
  | .ok ls => assembleAll ls
  | .error r => .error r

end Sys2Proof.Machine
end

