-- ==== Sys2Proof/Machine/Run.lean ====
section
/-! DEFINITION. Runs: of command words (70_reset_and_hazards.md R90), of clock edges, and the edges that a given latency for
every command makes (R89). -/

namespace Sys2Proof.Machine

/-- The words of a stream consumed in order, one at a time (20_memory.md R35). -/
def runWords : List Word → State → Host.Outcome State Fault Refusal
  | [], s => .next s
  | w :: ws, s => andThen (consume w s) (runWords ws)

/-- A run: reset, then a finite sequence of consumed words (70_reset_and_hazards.md R90). -/
def runFromReset (ws : List Word) : Host.Outcome State Fault Refusal := runWords ws State.reset

/-- The observation of a run, view by view: (STATUS, STORED) after each completed command (10_state.md R25). -/
def observations : List Word → State → List (Word × Half)
  | [], _ => []
  | w :: ws, s =>
    match consume w s with
    | .next t => observe t :: observations ws t
    | .fault _ => []
    | .refused _ => []

/-- How a run is read at its end: faulted if `err = 1` (60_exceptions.md R75; 70_reset_and_hazards.md R90). The block itself
goes on (R74); only the reading stops. -/
def endOfRun (s : State) : Host.Outcome State Fault Refusal :=
  if s.err = true then .fault .illegalCommand else .next s

/-- `k` rising edges. -/
def runSteps (k : Nat) (s : State) : Host.Outcome State Fault Refusal := Host.Core.run Sys2Proof.core k s

/-- All the listed edges. -/
def drain (s : State) : Host.Outcome State Fault Refusal := runSteps s.edges.length s

/-- The words consumed at a list of edges, in order (10_state.md R24). -/
def consumedWords (es : List Edge) : List Word := (es.filter accepted).map Edge.cmdData

/-- An edge while the block is busy: the host keeps offering its next word, or offers nothing. -/
def busyEdge : Option Word → Edge
  | some w => offerUnready w
  | none => { rst := false, cmdValid := false, cmdData := 0#32, blockReady := false }

/-- The edges at which the words are consumed when command `k` occupies `latency k` cycles
(92_eei_decisions.md, "Open parameters"; 70_reset_and_hazards.md R89). -/
def pacedEdges (latency : Nat → Nat) : List Word → List Edge
  | [] => []
  | w :: ws =>
    offer w :: (List.replicate (latency 0 - 1) (busyEdge ws.head?) ++ pacedEdges (fun k => latency (k + 1)) ws)

end Sys2Proof.Machine
end

