-- ==== Sys2Proof/Safety.lean ====
section
/-! DEFINITION. What counts as a safe run and a good state, in the terms the statements use. -/

namespace Sys2Proof

open Sys2Proof.Machine

/-- The run that ended in `s` is faulted (60_exceptions.md R75). -/
abbrev Faulted (s : State) : Prop := s.err = true

/-- While `vld = 0`, `corrupted = 0` (10_state.md R17). -/
abbrev NoVerdictReadsZero (s : State) : Prop := s.vld = false → s.corrupted = false

/-- While `vld = 1`, the verdict is the comparison of the two diagnostic values, STATUS[15:0] and STORED
(41_detector.md R63, R71, R72). -/
abbrev VerdictMatchesDiagnostics (s : State) : Prop := s.vld = true → s.corrupted = verdictOf s.crc s.stored

/-- The invariant of the verdict registers: both of the above. -/
abbrev VerdictInv (s : State) : Prop := NoVerdictReadsZero s ∧ VerdictMatchesDiagnostics s

/-- The edge the next step takes is a reset edge. -/
abbrev NextIsReset (s : State) : Prop := ∃ e rest, s.edges = e :: rest ∧ e.rst = true

/-- The next step consumes the word `w` (10_state.md R24). -/
abbrev NextConsumes (s : State) (w : Word) : Prop :=
  ∃ e rest, s.edges = e :: rest ∧ accepted e = true ∧ e.cmdData = w

/-- Two states agree on all that a command's rule reads or a verdict shows, and on the coming edges: everything but
`stored`, `err` and `cix` (10_state.md R18, R19, R20). -/
abbrev AgreeOnRead (s t : State) : Prop :=
  s.crc = t.crc ∧ s.vld = t.vld ∧ s.corrupted = t.corrupted ∧ s.wasReset = t.wasReset ∧ s.edges = t.edges

/-- The bytes that a list of commands feeds to the engine, in order: the operands of its BYTEs. -/
def bytesFed : List Instr → List Byte
  | [] => []
  | .byte d :: is => d :: bytesFed is
  | .nop :: is => bytesFed is
  | .init :: is => bytesFed is
  | .check _ :: is => bytesFed is

/-- The error patterns whose detection is guaranteed: some bit of the stream is 1, and (a) exactly one bit is, or (b) all
that are lie within 16 consecutive positions, or (c) exactly two are, less than 32767 positions apart, or (d) an odd
number is (41_detector.md R68). -/
def GuaranteedDetectable (e : List Byte) : Prop :=
  (∃ i, i < 8 * e.length ∧ streamBit e i = true) ∧
    (streamWeight e = 1
      ∨ (∃ k, ∀ i, streamBit e i = true → k ≤ i ∧ i < k + 16)
      ∨ (∃ i j, i < j ∧ j - i < 32767 ∧ ∀ k, streamBit e k = true ↔ (k = i ∨ k = j))
      ∨ streamWeight e % 2 = 1)

end Sys2Proof
end

