-- ==== Sys2Proof/Certificates/Slice0/Obligations.lean ====
section
/-! DEFINITION. The statements, each taken from the numbered rules of spec/. Where a statement says that `exec` or `step`
answers a next state, that is its conclusion, from hypotheses on the state and the operands alone. -/

open Sys2Proof Sys2Proof.Machine

/-! Encoding and decoding. -/

/-- 30_encoding.md R45: every worked encoding, both ways, and the five illegal words with the name of each. -/
def Obligations.WorkedEncodings : Prop :=
  (encode .nop = 0x00000000#32 ∧ decode 0x00000000#32 = .ok .nop) ∧
  (encode .init = 0x01000000#32 ∧ decode 0x01000000#32 = .ok .init) ∧
  (encode (.byte 0x12#8) = 0x02000012#32 ∧ decode 0x02000012#32 = .ok (.byte 0x12#8)) ∧
  (encode (.byte 0xFF#8) = 0x020000FF#32 ∧ decode 0x020000FF#32 = .ok (.byte 0xFF#8)) ∧
  (encode (.check 0xF8A0#16) = 0x0300F8A0#32 ∧ decode 0x0300F8A0#32 = .ok (.check 0xF8A0#16)) ∧
  (encode (.check 0x0000#16) = 0x03000000#32 ∧ decode 0x03000000#32 = .ok (.check 0x0000#16)) ∧
  decode 0x04000000#32 = .error (.unknownOpcode 0x04#8) ∧
  decode 0x00000001#32 = .error .operandNotZero ∧
  decode 0x02000112#32 = .error .byteHighBitsSet ∧
  decode 0x00010000#32 = .error .reservedBitsSet ∧
  decode 0xFFFFFFFF#32 = .error (.unknownOpcode 0xFF#8)

/-- 30_encoding.md R38 to R43: decoding the word of a command gives the command, for every operand value. -/
def Obligations.DecodeOfEncode : Prop :=
  ∀ i : Instr, decode (encode i) = .ok i

/-- 30_encoding.md R38 to R43: a word that decodes to a command is that command's one word. -/
def Obligations.EncodeOfDecode : Prop :=
  ∀ (w : Word) (i : Instr), decode w = .ok i → encode i = w

/-- 30_encoding.md R39, R42: what a word spells, told from its fields; no opcode from 0x04 up spells anything. -/
def Obligations.FieldsDecideTheCommand : Prop :=
  ∀ w : Word,
    (decode w = .ok .nop ↔ opField w = 0x00#8 ∧ rsvField w = 0x00#8 ∧ opndField w = 0x0000#16) ∧
    (decode w = .ok .nop ↔ w = 0x00000000#32) ∧
    (decode w = .ok .init ↔ opField w = 0x01#8 ∧ rsvField w = 0x00#8 ∧ opndField w = 0x0000#16) ∧
    (decode w = .ok .init ↔ w = 0x01000000#32) ∧
    (∀ d : Byte, decode w = .ok (.byte d) ↔
      opField w = 0x02#8 ∧ rsvField w = 0x00#8 ∧ byteHighField w = 0x00#8 ∧ byteField w = d) ∧
    (∀ v : Half, decode w = .ok (.check v) ↔ opField w = 0x03#8 ∧ rsvField w = 0x00#8 ∧ opndField w = v) ∧
    (0x04#8 ≤ opField w → ∃ r, decode w = .error r)

/-- 30_encoding.md R44: which words are illegal, how many are legal, and that an illegal word raises the exception. -/
def Obligations.IllegalWordsExactly : Prop :=
  (∀ w : Word, (∃ r, decode w = .error r) ↔
      (0x04#8 ≤ opField w) ∨
      (opField w ≤ 0x03#8 ∧ rsvField w ≠ 0x00#8) ∨
      ((opField w = 0x00#8 ∨ opField w = 0x01#8) ∧ opndField w ≠ 0x0000#16) ∨
      (opField w = 0x02#8 ∧ byteHighField w ≠ 0x00#8)) ∧
  (∃ l : List Word, l.Nodup ∧ l.length = 65794 ∧ ∀ w, w ∈ l ↔ ∃ i, decode w = .ok i) ∧
  (∀ (w : Word) (r : IllegalWord) (s : State), decode w = .error r →
    consume w s = .next { s with err := true, cix := s.cix + 1 })

/-! The commands. -/

/-- 40_crc_engine.md R53: NOP writes `cix` only, in every state; its encoding; no other word with its opcode is legal. -/
def Obligations.NopResult : Prop :=
  (∀ s : State, exec .nop s = .next { s with cix := s.cix + 1 }) ∧
  encode .nop = 0x00000000#32 ∧
  (∀ w : Word, opField w = 0x00#8 → w ≠ 0x00000000#32 → ∃ r, decode w = .error r)

/-- 40_crc_engine.md R54: INIT in every state; its encoding; two in a row equal one, apart from `cix`. -/
def Obligations.InitResult : Prop :=
  (∀ s : State, exec .init s =
    .next { s with crc := 0xFFFF#16, vld := false, corrupted := false, cix := s.cix + 1 }) ∧
  encode .init = 0x01000000#32 ∧
  (∀ s t : State, exec .init s = .next t → exec .init t = .next { t with cix := t.cix + 1 })

/-- 40_crc_engine.md R55, its pseudocode and the state it writes: BYTE in every state, for every byte. The corner case
about `d = 0x00` is `Obligations.ZeroByteFixedPoints` (assumption 9). -/
def Obligations.ByteResult : Prop :=
  ∀ (d : Byte) (s : State), exec (.byte d) s =
    .next { s with crc := byteStep s.crc d, vld := false, corrupted := false, cix := s.cix + 1 }

/-- 41_detector.md R63: CHECK in every state, for every operand; right after INIT it compares with 0xFFFF; two in a row
compare the same `crc`; a word with its opcode and a reserved bit set is illegal. -/
def Obligations.CheckResult : Prop :=
  (∀ (v : Half) (s : State), exec (.check v) s =
    .next { s with corrupted := decide (s.crc ≠ v), vld := true, stored := v, cix := s.cix + 1 }) ∧
  (∀ w : Word, opField w = 0x03#8 → rsvField w ≠ 0x00#8 → ∃ r, decode w = .error r) ∧
  (∀ w : Word, w &&& 0xFFFF0000#32 = 0x03000000#32 → decode w = .ok (.check (opndField w))) ∧
  (∀ (v : Half) (s t : State), exec .init s = .next t →
    exec (.check v) t =
      .next { t with corrupted := decide (0xFFFF#16 ≠ v), vld := true, stored := v, cix := t.cix + 1 }) ∧
  (∀ (v u : Half) (s t : State), exec (.check v) s = .next t →
    exec (.check u) t =
      .next { s with corrupted := decide (s.crc ≠ u), vld := true, stored := u, cix := s.cix + 2 })

/-- 40_crc_engine.md section 2, BYTE's corner case as its pseudocode has it: a zero byte leaves the register alone at
0x0000 and at 0xF01F, and changes it everywhere else (assumption 9). -/
def Obligations.ZeroByteFixedPoints : Prop :=
  ∀ r : Half, byteStep r 0x00#8 = r ↔ r = 0x0000#16 ∨ r = 0xF01F#16

/-- 40_crc_engine.md section 2, BYTE's corner case as its sentence has it: false at 0xF01F (assumption 9). -/
def Obligations.ZeroByteChangesEveryNonzeroRegister : Prop :=
  ∀ r : Half, r ≠ 0x0000#16 → byteStep r 0x00#8 ≠ r

/-- 40_crc_engine.md section 2, BYTE's corner case for a byte equal to `crc[15:8]`: the high octet cancels. -/
def Obligations.MatchingHighOctetCancels : Prop :=
  ∀ (r : Half) (d : Byte), d = highByte r → byteStep r d = r <<< 8

/-- The frame of every command (R53, R54, R55, R63 "State written"; R71): nothing a rule does not name changes. The block
has no memory to frame (20_memory.md R27). -/
def Obligations.CommandFrames : Prop :=
  ∀ (i : Instr) (s t : State), exec i s = .next t →
    t.err = s.err ∧ t.wasReset = s.wasReset ∧ t.edges = s.edges ∧
    ((∀ v, i ≠ .check v) → t.stored = s.stored) ∧
    ((i = .nop ∨ ∃ v, i = .check v) → t.crc = s.crc) ∧
    (i = .nop → t.vld = s.vld ∧ t.corrupted = s.corrupted)

/-! The step and the clock. -/

/-- 10_state.md R24: where a command's word is consumed, the step is that command's own rule, after the edge is gone. That
the effect stands at the consuming edge itself is THE MODEL'S CHOICE (assumption 14). -/
def Obligations.StepRunsDecodedCommand : Prop :=
  ∀ (s : State) (e : Edge) (rest : List Edge) (i : Instr),
    s.wasReset = true → s.edges = e :: rest → e.rst = false → e.cmdValid = true → e.blockReady = true →
    decode e.cmdData = .ok i →
    step s = exec i { s with edges := rest }

/-- 60_exceptions.md R73 at the clock: a consumed illegal word sets `err` and counts, and changes nothing else; no command
raises it. That the effect stands at the consuming edge itself is THE MODEL'S CHOICE (assumption 14); the rule without the
clock is `Obligations.ErrorBitOfConsumedWords`. -/
def Obligations.IllegalWordTakesException : Prop :=
  (∀ (s : State) (e : Edge) (rest : List Edge) (r : IllegalWord),
    s.wasReset = true → s.edges = e :: rest → e.rst = false → e.cmdValid = true → e.blockReady = true →
    decode e.cmdData = .error r →
    step s = .next { s with err := true, cix := s.cix + 1, edges := rest }) ∧
  (∀ (i : Instr) (s : State), ∃ t, exec i s = .next t ∧ t.err = s.err)

/-- 70_reset_and_hazards.md R83: the reset values; an edge with `rst = 1` gives exactly them from any state; before the
first reset every view read faults. -/
def Obligations.ResetState : Prop :=
  (State.reset.crc = 0xFFFF#16 ∧ State.reset.vld = false ∧ State.reset.corrupted = false ∧
    State.reset.stored = 0x0000#16 ∧ State.reset.err = false ∧ State.reset.cix = 0) ∧
  (∀ (s : State) (e : Edge) (rest : List Edge), s.edges = e :: rest → e.rst = true →
    ∃ t, step s = .next t ∧ t.crc = 0xFFFF#16 ∧ t.vld = false ∧ t.corrupted = false ∧ t.stored = 0x0000#16 ∧
      t.err = false ∧ t.cix = 0) ∧
  (∀ s : State, s.wasReset = false →
    readStatus s = .fault .beforeReset ∧ readStored s = .fault .beforeReset ∧
    readVerdict s = .fault .beforeReset)

/-- THE MODEL'S INFERENCE (assumption 2, DEDUCED from 93_implementation_defined.md I1): a command consumed before the first
reset reads a state that is not there, and faults. -/
def Obligations.CommandBeforeResetFaults : Prop :=
  ∀ (s : State) (e : Edge) (rest : List Edge), s.wasReset = false → s.edges = e :: rest → accepted e = true →
    step s = .fault .beforeReset

/-- 70_reset_and_hazards.md R84: at an edge with `rst = 1` the block is not ready, consumes nothing whatever `cmd_valid`
is, and is reset; the word of a command still offered at the next edge is consumed there. -/
def Obligations.ResetDominates : Prop :=
  ∀ (s : State) (e : Edge) (rest : List Edge), s.edges = e :: rest → e.rst = true →
    cmdReady e = false ∧ accepted e = false ∧
    step s = .next { State.reset with edges := rest } ∧
    (∀ (i : Instr) (later : List Edge), rest = offer (encode i) :: later →
      NextConsumes { State.reset with edges := rest } (encode i))

/-- 70_reset_and_hazards.md R84: a command that stays offered through a reset edge runs from the reset state at the next
edge. That its effect stands at that edge itself is THE MODEL'S CHOICE (assumption 14). -/
def Obligations.PendingCommandRunsAfterReset : Prop :=
  ∀ (s : State) (e : Edge) (i : Instr) (later : List Edge), s.edges = e :: offer (encode i) :: later → e.rst = true →
    runSteps 2 s = exec i { State.reset with edges := later }

/-- 10_state.md R24, 60_exceptions.md R81: an edge without reset at which the host offers nothing or the block is not
ready changes nothing. That this holds before the first reset too is THE MODEL'S INFERENCE (assumption 2, DEDUCED); that
it holds while an earlier command occupies the block is THE MODEL'S CHOICE (assumption 14). -/
def Obligations.EdgeWithoutCommandHolds : Prop :=
  ∀ (s : State) (e : Edge) (rest : List Edge), s.edges = e :: rest → e.rst = false →
    (e.cmdValid = false ∨ e.blockReady = false) →
    step s = .next { s with edges := rest }

/-- THE MODEL'S CHOICE (assumption 1): with no edge listed the host is quiet and the block holds its state. -/
def Obligations.QuietHostHolds : Prop :=
  ∀ s : State, s.edges = [] → ∀ k : Nat, runSteps k s = .next s

/-! What consuming a word does to each register, without the clock. -/

/-- 10_state.md R19, 60_exceptions.md R73, R74: consuming any word completes, in every state. It raises the exception
exactly if the word is illegal: then `err` is 1, `cix` one higher, and nothing else changes. A legal word leaves `err` and
runs its own command's rule, the same whatever `err` is. Only reset clears `err`. -/
def Obligations.ErrorBitOfConsumedWords : Prop :=
  State.reset.err = false ∧
  (∀ s : State, (applyReset s).err = false) ∧
  (∀ (w : Word) (s : State), ∃ t, consume w s = .next t ∧
    (t.err = true ↔ s.err = true ∨ ∃ r, decode w = .error r) ∧
    (∀ r, decode w = .error r → t = { s with err := true, cix := s.cix + 1 }) ∧
    (∀ i, decode w = .ok i → exec i s = .next t ∧ t.err = s.err ∧
      ∀ b, consume w { s with err := b } = .next { t with err := b }))

/-- 10_state.md R16, R18: after a consumed word `vld` is 1 exactly if it was a CHECK, or `vld` was 1 and it was neither INIT
nor a BYTE; `stored` is a CHECK's operand, and else as before; nothing that a word does depends on `stored`. -/
def Obligations.VerdictAndStoredOfConsumedWords : Prop :=
  (State.reset.vld = false ∧ State.reset.stored = 0x0000#16) ∧
  (∀ (w : Word) (s : State), ∃ t, consume w s = .next t ∧
    (t.vld = true ↔ (∃ v, decode w = .ok (.check v)) ∨
      (s.vld = true ∧ decode w ≠ .ok .init ∧ ∀ d, decode w ≠ .ok (.byte d))) ∧
    (∀ v, decode w = .ok (.check v) → t.stored = v ∧ t.corrupted = decide (s.crc ≠ v)) ∧
    ((∀ v, decode w ≠ .ok (.check v)) → t.stored = s.stored) ∧
    (∀ v, ∃ u, consume w { s with stored := v } = .next u ∧ { u with stored := t.stored } = t))

/-! The life of each register, over every step. That a consumed word takes effect in the very step that consumes it is THE
MODEL'S CHOICE (assumption 14), in each of them. -/

/-- 10_state.md R19, 60_exceptions.md R74, at the clock (assumption 14): between resets `err` is set by consumed illegal words and by nothing else, and
nothing clears it; reset clears it; no command reads it; and the block never stops. -/
def Obligations.ErrorBitLife : Prop :=
  State.reset.err = false ∧
  (∀ s t : State, step s = .next t → ¬ NextIsReset s →
    (t.err = true ↔ s.err = true ∨ ∃ w r, NextConsumes s w ∧ decode w = .error r)) ∧
  (∀ s t : State, step s = .next t → NextIsReset s → t.err = false) ∧
  (∀ (i : Instr) (s t : State) (b : Bool), exec i s = .next t →
    exec i { s with err := b } = .next { t with err := b }) ∧
  (∀ s : State, s.wasReset = true → ∃ t, step s = .next t ∧ t.wasReset = true)

/-- 10_state.md R18, at the clock (assumption 14): between resets only CHECK writes `stored`, with its operand; reset clears
it; and no command reads it. -/
def Obligations.StoredLife : Prop :=
  State.reset.stored = 0x0000#16 ∧
  (∀ s t : State, step s = .next t → ¬ NextIsReset s →
    (∀ v, NextConsumes s (encode (.check v)) → t.stored = v) ∧
    ((∀ v, ¬ NextConsumes s (encode (.check v))) → t.stored = s.stored)) ∧
  (∀ (i : Instr) (s t : State) (v : Half), exec i s = .next t →
    ∃ u, exec i { s with stored := v } = .next u ∧ AgreeOnRead t u ∧ u.err = t.err ∧ u.cix = t.cix)

/-- 10_state.md R20, at the clock (assumption 14): `cix` counts the words consumed since reset, legal or not, by one; no command reads it and no view
shows it; and the next word is always the next one offered. -/
def Obligations.CommandIndexLife : Prop :=
  State.reset.cix = 0 ∧
  (∀ s t : State, step s = .next t → ¬ NextIsReset s →
    (∀ w, NextConsumes s w → t.cix = s.cix + 1) ∧ ((∀ w, ¬ NextConsumes s w) → t.cix = s.cix)) ∧
  (∀ s t : State, step s = .next t → NextIsReset s → t.cix = 0) ∧
  (∀ (i : Instr) (s t : State) (n : Nat), exec i s = .next t →
    exec i { s with cix := n } = .next { t with cix := n + 1 }) ∧
  (∀ (s : State) (n : Nat), observe { s with cix := n } = observe s) ∧
  (∀ s t : State, step s = .next t → t.edges = s.edges.tail)

/-- 10_state.md R16, at the clock (assumption 14): between resets, `vld` is 1 after a step exactly if the step consumed a CHECK, or it was 1 and the step
consumed no INIT and no BYTE. -/
def Obligations.VerdictValidLife : Prop :=
  State.reset.vld = false ∧
  (∀ s t : State, step s = .next t → ¬ NextIsReset s →
    (t.vld = true ↔
      (∃ v, NextConsumes s (encode (.check v))) ∨
      (s.vld = true ∧ ¬ NextConsumes s (encode .init) ∧ ∀ d, ¬ NextConsumes s (encode (.byte d)))))

/-- 10_state.md R15, 41_detector.md R71, at the clock (assumption 14): between resets, INIT and BYTE alone write `crc`; every other consumed word and
every edge without one leaves it. -/
def Obligations.CrcRegisterLife : Prop :=
  State.reset.crc = 0xFFFF#16 ∧
  (∀ s t : State, step s = .next t → ¬ NextIsReset s →
    (NextConsumes s (encode .init) → t.crc = 0xFFFF#16) ∧
    (∀ d, NextConsumes s (encode (.byte d)) → t.crc = byteStep s.crc d) ∧
    (¬ NextConsumes s (encode .init) → (∀ d, ¬ NextConsumes s (encode (.byte d))) → t.crc = s.crc))

/-- 10_state.md R17, 41_detector.md R63, R71, R72: every step keeps the verdict registers consistent. While `vld = 0` the
verdict bit reads 0; while `vld = 1` it is the comparison of `crc` with `stored`. -/
def Obligations.VerdictInvariantKept : Prop :=
  ∀ s t : State, VerdictInv s → step s = .next t → VerdictInv t

/-- The invariant of the verdict registers holds after reset (10_state.md R16, R17). -/
def Obligations.VerdictInvariantAtReset : Prop := VerdictInv State.reset

/-- `stored`, `err` and `cix` are read by no command (10_state.md R18, R19, R20): two blocks that agree on everything else
and on the coming edges stay so over a step, and stop alike, so they never differ in the register or the verdict. -/
def Obligations.UnreadRegistersNeverMatter : Prop :=
  ∀ s t : State, AgreeOnRead s t →
    (∀ s', step s = .next s' → ∃ t', step t = .next t' ∧ AgreeOnRead s' t') ∧
    (∀ r, step s = .fault r → step t = .fault r) ∧ (∀ r, step s = .refused r → step t = .refused r)

/-! The views. -/

/-- 10_state.md R21: the fields of STATUS and STORED, their reset values, and that a state changes only by a consumed word
or reset. That it changes at no later edge than the one that consumes the word is THE MODEL'S CHOICE (assumption 14), that
it holds with no edge listed too (assumption 1), and that an unreset block stays as it is, its inference (assumption 2). -/
def Obligations.StatusLayout : Prop :=
  (∀ s : State,
    (status s).extractLsb' 0 16 = s.crc ∧
    (status s).getLsbD 16 = s.vld ∧
    (status s).getLsbD 17 = s.corrupted ∧
    (status s).getLsbD 18 = s.err ∧
    (status s).extractLsb' 19 13 = 0#13 ∧
    storedOut s = s.stored) ∧
  status State.reset = 0x0000FFFF#32 ∧ storedOut State.reset = 0x0000#16 ∧
  (∀ s : State, s.wasReset = true →
    readStatus s = .next (status s) ∧ readStored s = .next (storedOut s)) ∧
  (∀ s t : State, step s = .next t → ¬ NextIsReset s → (∀ w, ¬ NextConsumes s w) →
    t = { s with edges := s.edges.tail })

/-- 70_reset_and_hazards.md R87: `corrupted` is a verdict only while `vld = 1`; INIT and BYTE take the verdict away. -/
def Obligations.StaleVerdictRefused : Prop :=
  (∀ s : State, s.wasReset = true →
    (s.vld = false → readVerdict s = .refused .noVerdict) ∧
    (s.vld = true → readVerdict s = .next s.corrupted)) ∧
  (∀ s t : State, s.wasReset = true → (exec .init s = .next t ∨ ∃ d, exec (.byte d) s = .next t) →
    t.vld = false ∧ t.corrupted = false ∧ readVerdict t = .refused .noVerdict)

/-! The engine's functions and laws. -/

/-- 40_crc_engine.md R47: the bit step in numbers. With bit 15 clear the value doubles; with it set the bit is discarded
and the polynomial is XORed in; and R47's three examples. -/
def Obligations.BitStepArithmetic : Prop :=
  (∀ r : Half, r.toNat < 2 ^ 15 → (bitStep r).toNat = 2 * r.toNat) ∧
  (∀ r : Half, 2 ^ 15 ≤ r.toNat → bitStep r = BitVec.ofNat 16 (2 * r.toNat - 2 ^ 16) ^^^ 0x1021#16) ∧
  bitStep 0x8000#16 = 0x1021#16 ∧ bitStep 0x7FFF#16 = 0xFFFE#16 ∧ bitStep 0xFFFF#16 = 0xEFDF#16

/-- 40_crc_engine.md R49: the loop one byte at a time, R49's example, and the two-argument form, which is refused beyond
the buffer. -/
def Obligations.ChecksumDefinition : Prop :=
  computeChecksum [] = 0xFFFF#16 ∧
  (∀ (b : List Byte) (d : Byte), computeChecksum (b ++ [d]) = byteStep (computeChecksum b) d) ∧
  (∀ (b : List Byte) (n : Nat), n ≤ b.length → computeChecksumOf b n = .ok (computeChecksum (b.take n))) ∧
  (∀ (b : List Byte) (n : Nat), b.length < n → computeChecksumOf b n = .error .lengthBeyondBuffer) ∧
  computeChecksum [0x12#8, 0x34#8, 0x56#8, 0x78#8, 0x9A#8] = 0xF8A0#16

/-- 40_crc_engine.md R50: the checksum of no bytes. -/
def Obligations.ZeroLengthChecksum : Prop :=
  computeChecksum [] = 0xFFFF#16 ∧ ∀ b : List Byte, computeChecksumOf b 0 = .ok 0xFFFF#16

/-- 40_crc_engine.md R58: the byte step equals the shift register fed one bit per step, bit 7 first. -/
def Obligations.SerialFormAgrees : Prop :=
  ∀ (r : Half) (d : Byte), byteStep r d = byteStepSerial r d

/-- 40_crc_engine.md R59: the byte step equals the table form, and each entry of the listed table is `ByteStep(0, i)`. -/
def Obligations.TableFormAgrees : Prop :=
  (∀ i : Byte, tableEntry i = byteStep 0x0000#16 i) ∧ ∀ (r : Half) (d : Byte), byteStep r d = byteStepTable r d

/-- 40_crc_engine.md R60: the engine is linear over XOR, bit step, byte step and whole sequences. -/
def Obligations.EngineIsLinear : Prop :=
  (∀ a b : Half, bitStep (a ^^^ b) = bitStep a ^^^ bitStep b) ∧
  (∀ (r q : Half) (d e : Byte), byteStep (r ^^^ q) (d ^^^ e) = byteStep r d ^^^ byteStep q e) ∧
  (∀ a e : List Byte, a.length = e.length →
    computeChecksum (List.zipWith (fun x y => x ^^^ y) a e) = computeChecksum a ^^^ crc0 e)

/-- 40_crc_engine.md R61: for each byte the byte step is a bijection of the register. -/
def Obligations.ByteStepIsBijective : Prop :=
  ∀ d : Byte, Function.Bijective (fun r : Half => byteStep r d)

/-- 40_crc_engine.md R62: appending the checksum, high byte first, drives the register to zero. -/
def Obligations.ResidueIsZero : Prop :=
  ∀ m : List Byte,
    computeChecksum (m ++ [highByte (computeChecksum m), lowByte (computeChecksum m)]) = 0x0000#16

/-! Runs of commands. -/

/-- 40_crc_engine.md R56: from any state, INIT and then the bytes, with NOPs anywhere, leaves the checksum in `crc`, where
STATUS[15:0] shows it, and no verdict. The CRC pseudo-command is such a run. -/
def Obligations.ChecksumRun : Prop :=
  (∀ (s : State) (l : List Instr) (b : List Byte), l.filter (fun i => i ≠ .nop) = crcCommands b →
    ∃ t, runWords (wordsOf l) s = .next t ∧ t.crc = computeChecksum b ∧ t.vld = false ∧ t.corrupted = false ∧
      (status t).extractLsb' 0 16 = computeChecksum b) ∧
  (∀ b : List Byte, (crcCommands b).filter (fun i => i ≠ .nop) = crcCommands b)

/-- 41_detector.md R65: from any state, a VERIFY run of a well-formed packet, with NOPs anywhere, ends with its verdict. -/
def Obligations.VerifyRun : Prop :=
  ∀ (s : State) (p : Packet) (l : List Instr), p.wellFormed = true →
    l.filter (fun i => i ≠ .nop) = verifyCommands p →
    ∃ t, runWords (wordsOf l) s = .next t ∧
      t.crc = computeChecksum (packetBytes p) ∧
      t.vld = true ∧
      isCorrupted p = .ok t.corrupted ∧
      t.stored = p.storedChecksum ∧
      t.cix = s.cix + (wordsOf l).length ∧
      t.err = s.err ∧
      (s.wasReset = true → readVerdict t = .next t.corrupted)

/-- 40_crc_engine.md R51, 70_reset_and_hazards.md R85 (a), 20_memory.md R37 (a), 41_detector.md R71: without an INIT, any
run of commands goes on from whatever `crc` holds with exactly the bytes sent, across CHECKs and NOPs, and however many. -/
def Obligations.BytesContinueWithoutInit : Prop :=
  ∀ (s : State) (l : List Instr), Instr.init ∉ l →
    ∃ t, runWords (wordsOf l) s = .next t ∧ t.crc = crcFrom s.crc (bytesFed l)

/-- 60_exceptions.md R75: a run from reset is read as faulted exactly if some consumed word was illegal, and the block
itself reaches the end of every run. -/
def Obligations.RunFaultedExactlyByIllegalWords : Prop :=
  ∀ ws : List Word, ∃ t, runFromReset ws = .next t ∧
    (Faulted t ↔ ∃ w ∈ ws, ∃ r, decode w = .error r) ∧
    (endOfRun t = .fault .illegalCommand ↔ Faulted t) ∧
    (¬ Faulted t → endOfRun t = .next t)

/-- 10_state.md R25, 70_reset_and_hazards.md R90: one observation per completed command, each the views right after it; the
last is the final state's. -/
def Obligations.ObservationAfterEachCommand : Prop :=
  ∀ (ws : List Word) (s : State),
    (observations ws s).length = ws.length ∧
    ∀ (us vs : List Word) (w : Word), ws = us ++ w :: vs →
      ∃ t, runWords (us ++ [w]) s = .next t ∧ (observations ws s)[us.length]? = some (observe t)

/-! Clock edges against command words. -/

/-- 10_state.md R24, 20_memory.md R35: with no reset among the edges, whatever the host offers and whenever the block is
ready, the block ends where consuming the accepted words in order ends. That the last accepted word has its effect when
the edges end is THE MODEL'S CHOICE (assumption 14). -/
def Obligations.HandshakeRefinesCommandStream : Prop :=
  ∀ s : State, s.wasReset = true → (∀ e ∈ s.edges, e.rst = false) →
    drain s = runWords (consumedWords s.edges) { s with edges := [] }

/-- 70_reset_and_hazards.md R86, R89: the latency of the commands is invisible. Whatever each command's latency, the edges
it makes end where the words alone end. That the last word has its effect by then rests on assumption 14. -/
def Obligations.LatencyIsInvisible : Prop :=
  ∀ (latency : Nat → Nat) (ws : List Word) (s : State), (∀ k, 1 ≤ latency k) →
    s.wasReset = true → s.edges = pacedEdges latency ws →
    drain s = runWords ws { s with edges := [] }

/-- 70_reset_and_hazards.md R83, R84, R90: the last reset among the edges starts the run anew. Nothing before it is left:
the block ends where a run from reset on the words accepted after it ends. A block that was never reset is included if no
word is accepted before that reset (else it faults: THE MODEL'S INFERENCE, assumption 2); that the last word has its effect
when the edges end is THE MODEL'S CHOICE (assumption 14). -/
def Obligations.LastResetStartsTheRun : Prop :=
  ∀ (s : State) (pre post : List Edge) (e : Edge),
    (s.wasReset = true ∨ ∀ x ∈ pre, accepted x = false) → s.edges = pre ++ e :: post →
    e.rst = true → (∀ x ∈ post, x.rst = false) →
    drain s = runFromReset (consumedWords post)

/-! The packet and the detector. -/

/-- 20_memory.md R30: a VERIFY run sends the payload bytes in increasing index order, between its INIT and its CHECK; and
order matters, by R30's two examples. -/
def Obligations.PayloadOrder : Prop :=
  (∀ p : Packet, p.wellFormed = true →
    (verifyCommands p)[0]? = some .init ∧
    (∀ (i : Nat) (h : i < 50), i < p.length.toNat → (verifyCommands p)[i + 1]? = some (.byte p.payload[i])) ∧
    (verifyCommands p)[p.length.toNat + 1]? = some (.check p.storedChecksum) ∧
    (verifyCommands p).length = p.length.toNat + 2) ∧
  computeChecksum [0x00#8, 0x01#8] = 0x0D2E#16 ∧ computeChecksum [0x01#8, 0x00#8] = 0x2E3E#16

/-- 20_memory.md R28, 41_detector.md R64: neither `id` nor a byte past `length` influences the words sent or the
verdict. -/
def Obligations.TailAndIdNeverInfluence : Prop :=
  ∀ p q : Packet, p.length = q.length → p.storedChecksum = q.storedChecksum →
    (∀ (i : Nat) (h : i < 50), i < p.length.toNat → p.payload[i] = q.payload[i]) →
    verifyCommands p = verifyCommands q ∧ isCorrupted p = isCorrupted q ∧
    assemble (.verify p) = assemble (.verify q)

/-- 41_detector.md R66: which packets are well formed; an ill-formed one is refused, by the predicate and by VERIFY before
any word; a well-formed one always gets a Boolean and its words. -/
def Obligations.IllFormedPacketRefused : Prop :=
  ∀ p : Packet,
    (p.wellFormed = true ↔ p.length.toNat ≤ 50) ∧
    (50 < p.length.toNat →
      isCorrupted p = .error .illFormedPacket ∧ assemble (.verify p) = .error .illFormedPacket) ∧
    (p.length.toNat ≤ 50 →
      (∃ b, isCorrupted p = .ok b) ∧ assemble (.verify p) = .ok (wordsOf (verifyCommands p)))

/-- 30_encoding.md R46: each literal in range gives its word, and the pseudo-command CRC its n+1 words; one out of range is
refused and never truncated. -/
def Obligations.AssemblerExpansion : Prop :=
  assemble .nop = .ok [0x00000000#32] ∧ assemble .init = .ok [0x01000000#32] ∧
  (∀ n : Nat, n < 2 ^ 8 → assemble (.byte n) = .ok [encode (.byte (BitVec.ofNat 8 n))]) ∧
  (∀ n : Nat, 2 ^ 8 ≤ n → assemble (.byte n) = .error .literalOutOfRange) ∧
  (∀ n : Nat, n < 2 ^ 16 → assemble (.check n) = .ok [encode (.check (BitVec.ofNat 16 n))]) ∧
  (∀ n : Nat, 2 ^ 16 ≤ n → assemble (.check n) = .error .literalOutOfRange) ∧
  (∀ n : Nat, n < 2 ^ 32 → assemble (.word n) = .ok [BitVec.ofNat 32 n]) ∧
  (∀ n : Nat, 2 ^ 32 ≤ n → assemble (.word n) = .error .literalOutOfRange) ∧
  (∀ ns : List Nat, (∀ n ∈ ns, n < 2 ^ 8) →
    ∃ ws, assemble (.crc ns) = .ok ws ∧ ws.length = ns.length + 1 ∧
      ws = encode .init :: ns.map (fun n => encode (.byte (BitVec.ofNat 8 n)))) ∧
  (∀ ns : List Nat, (∃ n ∈ ns, 2 ^ 8 ≤ n) → assemble (.crc ns) = .error .literalOutOfRange)

/-- 41_detector.md R67: a packet whose checksum was stored correctly is never reported corrupted, by the predicate or by
its run from any state; scenario A is one. -/
def Obligations.NoFalseAlarm : Prop :=
  (∀ p : Packet, p.wellFormed = true → p.storedChecksum = computeChecksum (packetBytes p) →
    isCorrupted p = .ok false ∧
    ∀ s : State, ∃ t, runWords (wordsOf (verifyCommands p)) s = .next t ∧ t.corrupted = false) ∧
  (∀ p : Packet, packetBytes p = [0x12#8, 0x34#8, 0x56#8, 0x78#8, 0x9A#8] → p.storedChecksum = 0xF8A0#16 →
    p.wellFormed = true → isCorrupted p = .ok false)

/-- 41_detector.md R68: every change of a correctly stored packet by an error pattern of the four kinds is detected. -/
def Obligations.GuaranteedDetection : Prop :=
  ∀ (p : Packet) (e : List Byte), p.wellFormed = true → p.storedChecksum = computeChecksum (packetBytes p) →
    e.length = p.length.toNat → GuaranteedDetectable e →
    isCorrupted (xorPayload p e) = .ok true

/-- 41_detector.md section 3, the derivation of the detection laws: a changed packet is detected exactly if the error
pattern's own checksum from 0x0000 is not zero, whatever the message. -/
def Obligations.DetectedExactlyByCrcOfPattern : Prop :=
  ∀ (p : Packet) (e : List Byte), p.wellFormed = true → p.storedChecksum = computeChecksum (packetBytes p) →
    e.length = p.length.toNat →
    isCorrupted (xorPayload p e) = .ok (decide (crc0 e ≠ 0x0000#16))

/-- 41_detector.md section 3, 90_conflicts.md C1: the generator's own pattern, XORed into any three bytes in a row, is
never detected, and changes the packet. -/
def Obligations.GeneratorPatternUndetected : Prop :=
  ∀ (p : Packet) (k : Nat), p.wellFormed = true → k + 3 ≤ p.length.toNat →
    let q := xorPayload p (List.replicate k 0x00#8 ++ [0x01#8, 0x10#8, 0x21#8])
    isCorrupted q = isCorrupted p ∧ packetBytes q ≠ packetBytes p
end

