-- ==== Sys2Proof/Laws/State.lean ====
section
/-! SUPPORT. One lemma per field per state operation, each true by definition, so that no later proof unfolds a record
update. -/

namespace Sys2Proof.Machine

section advanceFields

variable (s : State)

@[simp] theorem advance_crc : (advance s).crc = s.crc := rfl
@[simp] theorem advance_vld : (advance s).vld = s.vld := rfl
@[simp] theorem advance_corrupted : (advance s).corrupted = s.corrupted := rfl
@[simp] theorem advance_stored : (advance s).stored = s.stored := rfl
@[simp] theorem advance_err : (advance s).err = s.err := rfl
@[simp] theorem advance_cix : (advance s).cix = s.cix + 1 := rfl
@[simp] theorem advance_wasReset : (advance s).wasReset = s.wasReset := rfl
@[simp] theorem advance_edges : (advance s).edges = s.edges := rfl

end advanceFields

section setCrcFields

variable (v : Half) (s : State)

@[simp] theorem setCrc_crc : (setCrc v s).crc = v := rfl
@[simp] theorem setCrc_vld : (setCrc v s).vld = s.vld := rfl
@[simp] theorem setCrc_corrupted : (setCrc v s).corrupted = s.corrupted := rfl
@[simp] theorem setCrc_stored : (setCrc v s).stored = s.stored := rfl
@[simp] theorem setCrc_err : (setCrc v s).err = s.err := rfl
@[simp] theorem setCrc_cix : (setCrc v s).cix = s.cix := rfl
@[simp] theorem setCrc_wasReset : (setCrc v s).wasReset = s.wasReset := rfl
@[simp] theorem setCrc_edges : (setCrc v s).edges = s.edges := rfl

end setCrcFields

section latchStoredFields

variable (v : Half) (s : State)

@[simp] theorem latchStored_crc : (latchStored v s).crc = s.crc := rfl
@[simp] theorem latchStored_vld : (latchStored v s).vld = s.vld := rfl
@[simp] theorem latchStored_corrupted : (latchStored v s).corrupted = s.corrupted := rfl
@[simp] theorem latchStored_stored : (latchStored v s).stored = v := rfl
@[simp] theorem latchStored_err : (latchStored v s).err = s.err := rfl
@[simp] theorem latchStored_cix : (latchStored v s).cix = s.cix := rfl
@[simp] theorem latchStored_wasReset : (latchStored v s).wasReset = s.wasReset := rfl
@[simp] theorem latchStored_edges : (latchStored v s).edges = s.edges := rfl

end latchStoredFields

section setVerdictFields

variable (v : Bool) (s : State)

@[simp] theorem setVerdict_crc : (setVerdict v s).crc = s.crc := rfl
@[simp] theorem setVerdict_vld : (setVerdict v s).vld = true := rfl
@[simp] theorem setVerdict_corrupted : (setVerdict v s).corrupted = v := rfl
@[simp] theorem setVerdict_stored : (setVerdict v s).stored = s.stored := rfl
@[simp] theorem setVerdict_err : (setVerdict v s).err = s.err := rfl
@[simp] theorem setVerdict_cix : (setVerdict v s).cix = s.cix := rfl
@[simp] theorem setVerdict_wasReset : (setVerdict v s).wasReset = s.wasReset := rfl
@[simp] theorem setVerdict_edges : (setVerdict v s).edges = s.edges := rfl

end setVerdictFields

section clearVerdictFields

variable (s : State)

@[simp] theorem clearVerdict_crc : (clearVerdict s).crc = s.crc := rfl
@[simp] theorem clearVerdict_vld : (clearVerdict s).vld = false := rfl
@[simp] theorem clearVerdict_corrupted : (clearVerdict s).corrupted = false := rfl
@[simp] theorem clearVerdict_stored : (clearVerdict s).stored = s.stored := rfl
@[simp] theorem clearVerdict_err : (clearVerdict s).err = s.err := rfl
@[simp] theorem clearVerdict_cix : (clearVerdict s).cix = s.cix := rfl
@[simp] theorem clearVerdict_wasReset : (clearVerdict s).wasReset = s.wasReset := rfl
@[simp] theorem clearVerdict_edges : (clearVerdict s).edges = s.edges := rfl

end clearVerdictFields

section raiseIllegalFields

variable (w : Word) (s : State)

@[simp] theorem raiseIllegal_crc : (raiseIllegal w s).crc = s.crc := rfl
@[simp] theorem raiseIllegal_vld : (raiseIllegal w s).vld = s.vld := rfl
@[simp] theorem raiseIllegal_corrupted : (raiseIllegal w s).corrupted = s.corrupted := rfl
@[simp] theorem raiseIllegal_stored : (raiseIllegal w s).stored = s.stored := rfl
@[simp] theorem raiseIllegal_err : (raiseIllegal w s).err = true := rfl
@[simp] theorem raiseIllegal_cix : (raiseIllegal w s).cix = s.cix + 1 := rfl
@[simp] theorem raiseIllegal_wasReset : (raiseIllegal w s).wasReset = s.wasReset := rfl
@[simp] theorem raiseIllegal_edges : (raiseIllegal w s).edges = s.edges := rfl

end raiseIllegalFields

section applyResetFields

variable (s : State)

@[simp] theorem applyReset_crc : (applyReset s).crc = 0xFFFF#16 := rfl
@[simp] theorem applyReset_vld : (applyReset s).vld = false := rfl
@[simp] theorem applyReset_corrupted : (applyReset s).corrupted = false := rfl
@[simp] theorem applyReset_stored : (applyReset s).stored = 0x0000#16 := rfl
@[simp] theorem applyReset_err : (applyReset s).err = false := rfl
@[simp] theorem applyReset_cix : (applyReset s).cix = 0 := rfl
@[simp] theorem applyReset_wasReset : (applyReset s).wasReset = true := rfl
@[simp] theorem applyReset_edges : (applyReset s).edges = s.edges := rfl

end applyResetFields

end Sys2Proof.Machine
end

