-- ==== Sys2Proof/Laws/Ops.lean ====
section
/-! SUPPORT. What each shared operation and the step can do, said once: later proofs cite these and do not unfold the
operations. -/

namespace Sys2Proof.Machine

/-! Outcomes. -/

@[simp] theorem andThen_next (s : State) (f : State → Host.Outcome State Fault Refusal) :
    andThen (.next s) f = f s := rfl

@[simp] theorem andThen_fault (r : Fault) (f : State → Host.Outcome State Fault Refusal) :
    andThen (.fault r) f = .fault r := rfl

@[simp] theorem andThen_refused (r : Refusal) (f : State → Host.Outcome State Fault Refusal) :
    andThen (.refused r) f = .refused r := rfl

/-! The commands. -/

@[simp] theorem exec_nop (s : State) : exec .nop s = .next (advance s) := rfl

@[simp] theorem exec_init (s : State) :
    exec .init s = .next (advance (clearVerdict (setCrc Config.initValue s))) := rfl

@[simp] theorem exec_byte (d : Byte) (s : State) :
    exec (.byte d) s = .next (advance (clearVerdict (setCrc (byteStep s.crc d) s))) := rfl

@[simp] theorem exec_check (v : Half) (s : State) :
    exec (.check v) s = .next (advance (latchStored v (setVerdict (verdictOf s.crc v) s))) := rfl

/-- Every command touches neither `err`, nor the model's own fields, and counts one. -/
theorem exec_common {i : Instr} {s t : State} (h : exec i s = .next t) :
    t.err = s.err ∧ t.wasReset = s.wasReset ∧ t.edges = s.edges ∧ t.cix = s.cix + 1 := by
  cases i <;> cases h <;> exact ⟨rfl, rfl, rfl, rfl⟩

/-! Consuming a word. -/

theorem consume_legal {w : Word} {i : Instr} (h : decode w = .ok i) (s : State) : consume w s = exec i s := by
  simp only [consume, h]

theorem consume_illegal {w : Word} {r : IllegalWord} (h : decode w = .error r) (s : State) :
    consume w s = .next (raiseIllegal w s) := by
  simp only [consume, h]

/-- All that consuming a word can do: a command's own rule, or the exception. -/
theorem consume_cases {w : Word} {s t : State} (h : consume w s = .next t) :
    (∃ i, decode w = .ok i ∧ exec i s = .next t) ∨ (∃ r, decode w = .error r ∧ t = raiseIllegal w s) := by
  cases hd : decode w with
  | ok i => exact .inl ⟨i, rfl, by rw [← consume_legal hd]; exact h⟩
  | error r =>
    rw [consume_illegal hd] at h
    cases h
    exact .inr ⟨r, rfl, rfl⟩

/-- Consuming a word touches neither of the model's own fields, and counts one. -/
theorem consume_common {w : Word} {s t : State} (h : consume w s = .next t) :
    t.wasReset = s.wasReset ∧ t.edges = s.edges ∧ t.cix = s.cix + 1 := by
  obtain ⟨i, -, hi⟩ | ⟨r, -, rfl⟩ := consume_cases h
  · exact (exec_common hi).2
  · exact ⟨rfl, rfl, rfl⟩

/-! Clock edges and the step. -/

theorem accepted_rst {e : Edge} (h : accepted e = true) : e.rst = false := by
  cases hr : e.rst
  · rfl
  · simp [accepted, hr] at h

theorem step_quiet {s : State} (h : s.edges = []) : step s = .next s := by
  simp only [step, takeEdge, h]

theorem step_edge {s : State} {e : Edge} {rest : List Edge} (h : s.edges = e :: rest) :
    step s = clockEdge e { s with edges := rest } := by
  simp only [step, takeEdge, h]

/-- All that a step to a next state can do: nothing (no edge listed), a reset, consuming a word, or waiting. -/
theorem step_cases {s t : State} (h : step s = .next t) :
    (s.edges = [] ∧ t = s) ∨
    ∃ e rest, s.edges = e :: rest ∧
      ((e.rst = true ∧ t = applyReset { s with edges := rest }) ∨
       (e.rst = false ∧ accepted e = true ∧ s.wasReset = true ∧
          consume e.cmdData { s with edges := rest } = .next t) ∨
       (e.rst = false ∧ accepted e = false ∧ t = { s with edges := rest })) := by
  cases he : s.edges with
  | nil =>
    rw [step_quiet he] at h
    cases h
    exact .inl ⟨rfl, rfl⟩
  | cons e rest =>
    rw [step_edge he, clockEdge] at h
    refine .inr ⟨e, rest, rfl, ?_⟩
    split at h
    next hr => cases h; exact .inl ⟨hr, rfl⟩
    next hr =>
      have hr' : e.rst = false := by simpa using hr
      split at h
      next ha =>
        split at h
        next hw => exact .inr (.inl ⟨hr', ha, hw, h⟩)
        next => cases h
      next ha => cases h; exact .inr (.inr ⟨hr', by simpa using ha, rfl⟩)

/-- A table word placed at the fetch is consumed by the very next step. -/
theorem step_withFetchWord {s : State} (h : s.wasReset = true) (nbits w : Nat) :
    step (s.withFetchWord nbits w) = consume (tableWord nbits w) s := by
  rw [step_edge (s := s.withFetchWord nbits w) (e := offer (tableWord nbits w)) (rest := s.edges) rfl, clockEdge]
  cases s
  cases h
  rfl

/-! Runs of words. -/

@[simp] theorem runWords_nil (s : State) : runWords [] s = .next s := rfl

theorem runWords_cons (w : Word) (ws : List Word) (s : State) :
    runWords (w :: ws) s = andThen (consume w s) (runWords ws) := rfl

theorem runWords_append (ws vs : List Word) (s : State) :
    runWords (ws ++ vs) s = andThen (runWords ws s) (runWords vs) := by
  induction ws generalizing s with
  | nil => rfl
  | cons w ws ih =>
    rw [List.cons_append, runWords_cons, runWords_cons]
    cases consume w s with
    | next t => exact ih t
    | fault r => rfl
    | refused r => rfl

/-! The loop of the engine. -/

@[simp] theorem crcFrom_nil (r : Half) : crcFrom r [] = r := rfl

@[simp] theorem crcFrom_cons (r : Half) (d : Byte) (b : List Byte) :
    crcFrom r (d :: b) = crcFrom (byteStep r d) b := rfl

theorem crcFrom_append (r : Half) (a b : List Byte) : crcFrom r (a ++ b) = crcFrom (crcFrom r a) b :=
  List.foldl_append

/-- The operand types are exactly the fields, so every instruction is well formed. -/
theorem instr_wellFormed (i : Instr) : i.wellFormed = true := by
  cases i with
  | nop => rfl
  | init => rfl
  | byte d => simpa [Instr.wellFormed] using d.isLt
  | check v => simpa [Instr.wellFormed] using v.isLt

end Sys2Proof.Machine
end

