-- ==== Sys2Proof/Laws/Packet.lean ====
section
/-! SUPPORT. Small facts about packets, error patterns and command runs. -/

namespace Sys2Proof.Machine

/-- Past its end a stream has no 1 bit. -/
theorem streamBit_beyond {e : List Byte} {k : Nat} (h : 8 * e.length ≤ k) : streamBit e k = false := by
  have hk : e.length ≤ k / 8 := by omega
  rw [streamBit, List.getD_eq_default _ _ hk, BitVec.getLsbD_zero]

/-- A well-formed packet sends exactly `length` bytes. -/
theorem packetBytes_length {p : Packet} (h : p.wellFormed = true) : (packetBytes p).length = p.length.toNat := by
  have h50 : p.length.toNat ≤ 50 := of_decide_eq_true h
  simpa [packetBytes] using h50

/-- A pattern changes neither the packet's form nor its stored checksum. -/
@[simp] theorem xorPayload_wellFormed (p : Packet) (e : List Byte) :
    (xorPayload p e).wellFormed = p.wellFormed := rfl

@[simp] theorem xorPayload_storedChecksum (p : Packet) (e : List Byte) :
    (xorPayload p e).storedChecksum = p.storedChecksum := rfl

@[simp] theorem xorPayload_length (p : Packet) (e : List Byte) : (xorPayload p e).length = p.length := rfl

/-- The producer's act on a well-formed packet stores the checksum and changes nothing else. -/
theorem sealPacket_wellFormed {p : Packet} (h : p.wellFormed = true) :
    sealPacket p = .ok { p with storedChecksum := computeChecksum (packetBytes p) } := by
  have h50 : p.length.toNat ≤ 50 := of_decide_eq_true h
  simp [sealPacket, computeChecksumOf, packetBytes, h50]

/-- The producer's act on an ill-formed packet is refused. -/
theorem sealPacket_illFormed {p : Packet} (h : p.wellFormed = false) : sealPacket p = .error .lengthBeyondBuffer := by
  have h50 : ¬ p.length.toNat ≤ 50 := of_decide_eq_false h
  simp [sealPacket, computeChecksumOf, h50]

/-- A clean verdict, and a detected change, in terms of the comparator. -/
theorem isCorrupted_wellFormed {p : Packet} (h : p.wellFormed = true) :
    isCorrupted p = .ok (verdictOf (computeChecksum (packetBytes p)) p.storedChecksum) := by
  simp [isCorrupted, h]

theorem isCorrupted_illFormed {p : Packet} (h : p.wellFormed = false) : isCorrupted p = .error .illFormedPacket := by
  simp [isCorrupted, h]

end Sys2Proof.Machine
end

