-- ==== Sys2Proof/Laws/PerInstr.lean ====
section
/-! SUPPORT. Statements about every instruction as syntax, one lemma per constructor. -/

namespace Sys2Proof.Laws.EncodedFields

/-- The word of an instruction holds the opcode of its row in bits [31:24] and 0x00 in the reserved bits [23:16]
(30_encoding.md R38, R39). -/
def Statement (i : Instr) : Prop := opField (encode i) = opcodeOf i ∧ rsvField (encode i) = 0x00#8

/-- The opcode of a packed word. -/
theorem opField_packWord (op rsv : Byte) (opnd : Half) : opField (packWord op rsv opnd) = op := by
  apply BitVec.eq_of_getLsbD_eq
  intro i hi
  have h1 : ¬ 24 + i < 16 := by omega
  have h2 : ¬ 24 + i - 16 < 8 := by omega
  have h3 : 24 + i - 16 - 8 = i := by omega
  simp only [opField, packWord, BitVec.getLsbD_extractLsb', BitVec.getLsbD_append, hi, h1, h2, h3, decide_true,
    Bool.true_and, if_false]

/-- The reserved bits of a packed word. -/
theorem rsvField_packWord (op rsv : Byte) (opnd : Half) : rsvField (packWord op rsv opnd) = rsv := by
  apply BitVec.eq_of_getLsbD_eq
  intro i hi
  have h1 : ¬ 16 + i < 16 := by omega
  have h2 : 16 + i - 16 = i := by omega
  simp only [rsvField, packWord, BitVec.getLsbD_extractLsb', BitVec.getLsbD_append, hi, h1, h2, decide_true,
    Bool.true_and, if_false, if_true]

theorem nop : Statement .nop := ⟨opField_packWord _ _ _, rsvField_packWord _ _ _⟩

theorem init : Statement .init := ⟨opField_packWord _ _ _, rsvField_packWord _ _ _⟩

theorem byte (d : Byte) : Statement (.byte d) := ⟨opField_packWord _ _ _, rsvField_packWord _ _ _⟩

theorem check (s : Half) : Statement (.check s) := ⟨opField_packWord _ _ _, rsvField_packWord _ _ _⟩

end Sys2Proof.Laws.EncodedFields
end

