-- ==== Sys2Proof/Laws/Run.lean ====
section
/-! SUPPORT. Runs of steps, one step at a time. -/

namespace Sys2Proof.Machine

@[simp] theorem runSteps_zero (s : State) : runSteps 0 s = .next s := rfl

theorem runSteps_succ (k : Nat) (s : State) : runSteps (k + 1) s = andThen (step s) (runSteps k) := by
  unfold runSteps
  simp only [Host.Core.run]
  have hcore : Sys2Proof.core.step s = step s := rfl
  cases h : step s with
  | next t => rw [h] at hcore; simp only [hcore]; rfl
  | fault r => rw [h] at hcore; simp only [hcore]; rfl
  | refused r => rw [h] at hcore; simp only [hcore]; rfl

theorem runSteps_add (k n : Nat) (s : State) : runSteps (k + n) s = andThen (runSteps k s) (runSteps n) := by
  induction k generalizing s with
  | zero => rw [Nat.zero_add]; rfl
  | succ k ih =>
    rw [Nat.succ_add, runSteps_succ, runSteps_succ]
    cases step s with
    | next t => exact ih t
    | fault r => rfl
    | refused r => rfl

end Sys2Proof.Machine
end

