-- ==== Sys2Proof/Tests/Slice0.lean ====
section
/-! SUPPORT. Tests of the model against the values that spec/ works out (95_test_vectors.md unless said otherwise), each
about one step or one function, and a witness for every statement that has hypotheses. -/

namespace Sys2Proof.Tests

open Sys2Proof Sys2Proof.Machine

/-- A state as 95_test_vectors.md section 2.4 writes it, after a reset and with no edge listed. -/
def st (crc : Half) (vld corrupted : Bool) (stored : Half) (err : Bool) (cix : Nat) : State :=
  { crc := crc, vld := vld, corrupted := corrupted, stored := stored, err := err, cix := cix,
    wasReset := true, edges := [] }

/-- The step answers the next state `t`. -/
def goesTo (o : Host.Outcome State Fault Refusal) (t : State) : Bool :=
  match o with
  | .next s => decide (s = t)
  | .fault _ => false
  | .refused _ => false

/-- The step stops with the fault `r`. -/
def faultsWith (o : Host.Outcome State Fault Refusal) (r : Fault) : Bool :=
  match o with
  | .next _ => false
  | .fault q => decide (q = r)
  | .refused _ => false

/-- A packet with the given first bytes. -/
def packet (length : Byte) (bytes : List Byte) (stored : Half) : Packet :=
  { id := 0x07#8, length := length, payload := ⟨((bytes ++ List.replicate 50 0xEE#8).take 50).toArray, by simp⟩, storedChecksum := stored }

/-- Scenario A's bytes (V-S1). -/
def bytesA : List Byte := [0x12#8, 0x34#8, 0x56#8, 0x78#8, 0x9A#8]

/-- Scenario A's packet (V-S1). -/
def packetA : Packet := packet 0x05#8 bytesA 0xF8A0#16

/-! Well-formedness: an ill-formed term for each check, refused. An instruction's operands are exactly its fields, so
every instruction passes (Laws, `instr_wellFormed`); the numeric checks are those of the assembler's lines. -/

theorem test_wf_instr : (Instr.byte 0xFF#8).wellFormed = true ∧ (Instr.check 0xFFFF#16).wellFormed = true := by decide
theorem test_wf_byte : (AsmLine.byte 255).wellFormed = true ∧ (AsmLine.byte 256).wellFormed = false := by decide
theorem test_wf_check : (AsmLine.check 65535).wellFormed = true ∧ (AsmLine.check 65536).wellFormed = false := by decide
theorem test_wf_word :
    (AsmLine.word 4294967295).wellFormed = true ∧ (AsmLine.word 4294967296).wellFormed = false := by decide
theorem test_wf_crc : (AsmLine.crc [0, 255]).wellFormed = true ∧ (AsmLine.crc [0, 256]).wellFormed = false := by decide
theorem test_wf_packet :
    (packet 0x32#8 [] 0#16).wellFormed = true ∧ (packet 0x33#8 [] 0#16).wellFormed = false := by decide
theorem test_wf_verify :
    (AsmLine.verify packetA).wellFormed = true ∧ (AsmLine.verify (packet 0x33#8 [] 0#16)).wellFormed = false := by decide

/-! Decoding: words written out bit by bit from 30_encoding.md R38 to R42. -/

theorem test_decode_nop_bits : decode 0b00000000_00000000_0000000000000000#32 = .ok .nop := by decide
theorem test_decode_init_bits : decode 0b00000001_00000000_0000000000000000#32 = .ok .init := by decide
theorem test_decode_byte_bits :
    decode 0b00000010_00000000_00000000_10010110#32 = .ok (.byte 0b10010110#8) := by decide
theorem test_decode_check_bits :
    decode 0b00000011_00000000_1000000001111010#32 = .ok (.check 0b1000000001111010#16) := by decide

theorem test_decode_x7 : decode 0x0300FFFF#32 = .ok (.check 0xFFFF#16) := by decide
theorem test_decode_x10 : decode 0x01000001#32 = .error .operandNotZero := by decide
theorem test_decode_x12 : decode 0x02000100#32 = .error .byteHighBitsSet := by decide
theorem test_decode_x14 : decode 0x01800000#32 = .error .reservedBitsSet := by decide
theorem test_decode_x15 : decode 0x03010000#32 = .error .reservedBitsSet := by decide
theorem test_decode_x16 : decode 0x80000000#32 = .error (.unknownOpcode 0x80#8) := by decide

theorem test_table_word_byte : decodeTableWord 32 0x020000FF = some (.byte 0xFF#8) := by decide
theorem test_table_word_illegal : decodeTableWord 32 0x04000000 = none := by decide
theorem test_table_word_too_long : decodeTableWord 40 0 = none := by decide

/-! The engine's functions. -/

theorem test_bit_step_e6 : bitStep 0x8421#16 = 0x1863#16 := by decide
theorem test_bit_step_e8 : bitStep 0xC000#16 = 0x9021#16 := by decide
theorem test_byte_step_e11 : byteStep 0x0000#16 0x80#8 = 0x9188#16 := by decide
theorem test_byte_step_e12 : byteStep 0xFFFF#16 0x12#8 = 0xD383#16 := by decide
theorem test_byte_step_e13c : byteStep 0x1234#16 0x12#8 = 0x3400#16 := by decide
theorem test_serial_e12 : byteStepSerial 0xFFFF#16 0x12#8 = 0xD383#16 := by decide
theorem test_table_e12 : byteStepTable 0xFFFF#16 0x12#8 = 0xD383#16 := by decide
theorem test_table_length : crcTable.length = 256 := by decide +kernel
theorem test_checksum_a : computeChecksum bytesA = 63648#16 := by decide +kernel
theorem test_checksum_b : computeChecksum [0x12#8, 0x34#8, 0xBC#8, 0x78#8, 0x9A#8] = 40784#16 := by decide +kernel
theorem test_checksum_e20 :
    computeChecksum [0x31#8, 0x32#8, 0x33#8, 0x34#8, 0x35#8, 0x36#8, 0x37#8, 0x38#8, 0x39#8] = 0x29B1#16 := by decide +kernel
theorem test_checksum_e22 : computeChecksum (bytesA ++ [0xF8#8, 0xA0#8]) = 0x0000#16 := by decide +kernel
theorem test_second_fixed_point : byteStep 0xF01F#16 0x00#8 = 0xF01F#16 := by decide

/-! The commands, through the step (section 2.4). -/

theorem test_step_c2_nop :
    goesTo (step (offerNext 0x00000000#32 (st 0xF8A0#16 true false 0xF8A0#16 false 7)))
      (st 0xF8A0#16 true false 0xF8A0#16 false 8) = true := by decide
theorem test_step_c4_init :
    goesTo (step (offerNext 0x01000000#32 (st 0x9F50#16 true true 0xF8A0#16 true 9)))
      (st 0xFFFF#16 false false 0xF8A0#16 true 10) = true := by decide
theorem test_step_c5_byte :
    goesTo (step (offerNext 0x02000000#32 (st 0xF8A0#16 true true 0x1234#16 false 3)))
      (st 0xCE17#16 false false 0x1234#16 false 4) = true := by decide
theorem test_step_c6_check :
    goesTo (step (offerNext 0x0300F8A1#32 (st 0xF8A0#16 false false 0x1234#16 false 3)))
      (st 0xF8A0#16 true true 0xF8A1#16 false 4) = true := by decide
theorem test_step_check_equal :
    goesTo (step (offerNext 0x0300F8A0#32 (st 0xF8A0#16 false false 0x1234#16 false 6)))
      (st 0xF8A0#16 true false 0xF8A0#16 false 7) = true := by decide
theorem test_step_c7_illegal :
    goesTo (step (offerNext 0x04000000#32 (st 0x1234#16 true true 0x0000#16 false 0)))
      (st 0x1234#16 true true 0x0000#16 true 1) = true := by decide
theorem test_step_c8_illegal_again :
    goesTo (step (offerNext 0xFFFFFFFF#32 (st 0x1234#16 true true 0x5555#16 true 5)))
      (st 0x1234#16 true true 0x5555#16 true 6) = true := by decide
theorem test_step_c9_reset :
    goesTo (step { st 0x1234#16 true true 0x5555#16 true 5 with edges := [resetEdge] })
      (st 0xFFFF#16 false false 0x0000#16 false 0) = true := by decide
theorem test_step_reset_beats_command :
    goesTo (step { st 0x1234#16 true true 0x5555#16 true 5 with
        edges := [{ offer 0x02000012#32 with rst := true }, offer 0x02000012#32] })
      { st 0xFFFF#16 false false 0x0000#16 false 0 with edges := [offer 0x02000012#32] } = true := by decide
theorem test_step_not_ready :
    goesTo (step { st 0x1234#16 true true 0x5555#16 true 5 with edges := [offerUnready 0x02000012#32] })
      (st 0x1234#16 true true 0x5555#16 true 5) = true := by decide
theorem test_step_before_reset :
    faultsWith (step { offerNext 0x00000000#32 State.reset with wasReset := false }) .beforeReset = true := by decide
theorem test_first_fetch_after_reset :
    goesTo (step (State.reset.withFetchWord 32 0x02000012)) (st 0xD383#16 false false 0x0000#16 false 1) = true := by
  decide

/-! The views. -/

theorem test_status_p2 : status (st 0x9F50#16 true true 0xF8A0#16 false 7) = 0x00039F50#32 := by decide
theorem test_status_p5 : status (st 0x0EC9#16 true false 0x0EC9#16 true 5) = 0x00050EC9#32 := by decide
theorem test_stored_p1 : storedOut (st 0xF8A0#16 true false 0xF8A0#16 false 7) = 0xF8A0#16 := by decide

/-! The detector. -/

theorem test_detector_a : isCorrupted packetA = .ok false := by decide +kernel
theorem test_detector_b : isCorrupted (xorPayload packetA [0x00#8, 0x00#8, 0xEA#8]) = .ok true := by decide +kernel
theorem test_detector_d3 : isCorrupted (packet 0x00#8 [] 0xFFFF#16) = .ok false := by decide +kernel
theorem test_detector_d7 :
    packetBytes (xorPayload packetA [0x00#8, 0x00#8, 0x01#8, 0x10#8, 0x21#8])
      = [0x12#8, 0x34#8, 0x57#8, 0x68#8, 0xBB#8] ∧
    isCorrupted (xorPayload packetA [0x00#8, 0x00#8, 0x01#8, 0x10#8, 0x21#8]) = .ok false := by decide +kernel
theorem test_detector_d8 :
    isCorrupted (packet 0x33#8 [] 0#16) = .error .illFormedPacket ∧
    assemble (.verify (packet 0x33#8 [] 0#16)) = .error .illFormedPacket := by decide
theorem test_detector_d10 :
    computeChecksum (packetBytes (xorPayload packetA [0x80#8])) = 0xDA70#16 ∧
    computeChecksum (packetBytes (xorPayload packetA [0x00#8, 0x00#8, 0x00#8, 0x00#8, 0x01#8])) = 0xE881#16 := by decide +kernel
theorem test_seal : sealPacket (packet 0x05#8 bytesA 0x0000#16) = .ok packetA := by decide +kernel
theorem test_seal_ill_formed : sealPacket (packet 0x33#8 [] 0#16) = .error .lengthBeyondBuffer := by decide +kernel

/-! The assembler (30_encoding.md R46). -/

theorem test_asm_verify_p3 : assemble (.verify (packet 0x00#8 [] 0xFFFF#16)) = .ok [0x01000000#32, 0x0300FFFF#32] := by decide +kernel
theorem test_asm_text_byte :
    assembleText [] ['b', 'Y', 't', 'e', ' ', '0', 'x', '1', '2', ' ', ';', 'x'] = .ok [0x02000012#32] := by decide
theorem test_asm_text_crc :
    assembleText [] ['C', 'R', 'C', ' ', '1', '8', ',', ' ', '0', 'x', 'f', 'F', '\n', '\n', 'N', 'O', 'P']
      = .ok [0x01000000#32, 0x02000012#32, 0x020000FF#32, 0x00000000#32] := by decide
theorem test_asm_text_word :
    assembleText [] ['.', 'w', 'o', 'r', 'd', ' ', '0', 'x', '2', '0', '0', '0', '1', '1', '2'] = .ok [0x02000112#32] := by
  decide
theorem test_asm_text_check_decimal :
    assembleText [] ['C', 'H', 'E', 'C', 'K', ' ', '6', '3', '6', '4', '8'] = .ok [0x0300F8A0#32] := by decide
theorem test_asm_text_out_of_range :
    assembleText [] ['B', 'Y', 'T', 'E', ' ', '2', '5', '6'] = .error .literalOutOfRange := by decide
theorem test_asm_text_bad_line :
    assembleText [] ['C', 'R', 'C', ' ', '1', ','] = .error .badLine ∧
    assembleText [] ['B', 'Y', 'T', 'E', ' ', '0', 'x'] = .error .badLine := by decide
theorem test_asm_text_verify :
    assembleText [(['p'], packet 0x01#8 [0x12#8] 0xD383#16)] ['V', 'e', 'r', 'i', 'f', 'y', ' ', 'p']
      = .ok [0x01000000#32, 0x02000012#32, 0x0300D383#32] ∧
    assembleText [] ['V', 'E', 'R', 'I', 'F', 'Y', ' ', 'p'] = .error .unknownPacket := by decide +kernel

/-! Witnesses: for each statement with hypotheses, a concrete state and operands that meet all of them, one for each
clause, at the boundary of its range. -/

/-- A state with a verdict standing, to be stepped. -/
def sV : State := st 0xF8A0#16 true false 0xF8A0#16 false 7

/-- The same before the first reset. -/
def sU : State := { sV with wasReset := false }

/-- `sV` with the edges `es` to come. -/
def sV_at (es : List Edge) : State := { sV with edges := es }

/-- The next edge of `sV_at (offer w :: es)` consumes `w` and is no reset. -/
theorem consumes_offer (w : Word) (es : List Edge) :
    NextConsumes (sV_at (offer w :: es)) w ∧ ¬ NextIsReset (sV_at (offer w :: es)) := by
  refine ⟨⟨offer w, es, rfl, rfl, rfl⟩, ?_⟩
  rintro ⟨e, rest, h, hr⟩
  cases h
  cases hr

/-- It consumes no other word. -/
theorem consumes_only (w v : Word) (es : List Edge) (h : v ≠ w) : ¬ NextConsumes (sV_at (offer w :: es)) v := by
  rintro ⟨e, rest, he, -, hw⟩
  cases he
  exact h hw.symm

/-- The next edge of `sV_at (offerUnready w :: es)` consumes nothing and is no reset. -/
theorem consumes_nothing (w : Word) (es : List Edge) :
    (∀ v, ¬ NextConsumes (sV_at (offerUnready w :: es)) v) ∧ ¬ NextIsReset (sV_at (offerUnready w :: es)) := by
  constructor
  · rintro v ⟨e, rest, h, ha, -⟩
    cases h
    cases ha
  · rintro ⟨e, rest, h, hr⟩
    cases h
    cases hr

theorem witness_EncodeOfDecode :
    decode 0x00000000#32 = .ok .nop ∧ decode 0x01000000#32 = .ok .init ∧
    decode 0x020000FF#32 = .ok (.byte 0xFF#8) ∧ decode 0x0300FFFF#32 = .ok (.check 0xFFFF#16) := by decide

theorem witness_FieldsDecideTheCommand :
    0x04#8 ≤ opField 0x04000000#32 ∧ 0x04#8 ≤ opField 0xFF000000#32 ∧ ¬ 0x04#8 ≤ opField 0x03FFFFFF#32 := by decide

theorem witness_IllegalWordsExactly :
    decode 0x04000000#32 = .error (.unknownOpcode 0x04#8) ∧ decode 0x03010000#32 = .error .reservedBitsSet ∧
    decode 0x01000001#32 = .error .operandNotZero ∧ decode 0x02000100#32 = .error .byteHighBitsSet := by decide

theorem witness_NopResult : opField 0x00000001#32 = 0x00#8 ∧ 0x00000001#32 ≠ 0x00000000#32 := by decide

theorem witness_InitResult : exec .init sV = .next (st 0xFFFF#16 false false 0xF8A0#16 false 8) := rfl

theorem witness_CheckResult_reserved : opField 0x03010000#32 = 0x03#8 ∧ rsvField 0x03010000#32 ≠ 0x00#8 := by decide
theorem witness_CheckResult_mask : 0x0300FFFF#32 &&& 0xFFFF0000#32 = 0x03000000#32 := by decide
theorem witness_CheckResult_next :
    exec (.check 0x0000#16) sV = .next (st 0xF8A0#16 true true 0x0000#16 false 8) := rfl

theorem witness_ZeroByteChangesEveryNonzeroRegister : (0x0001#16 : Half) ≠ 0x0000#16 := by decide

theorem witness_MatchingHighOctetCancels : 0x12#8 = highByte 0x1234#16 := by decide

theorem witness_CommandFrames :
    exec .nop sV = .next (st 0xF8A0#16 true false 0xF8A0#16 false 8) ∧
    exec .init sV = .next (st 0xFFFF#16 false false 0xF8A0#16 false 8) ∧
    exec (.byte 0x00#8) sV = .next (st (byteStep 0xF8A0#16 0x00#8) false false 0xF8A0#16 false 8) ∧
    exec (.check 0x0000#16) sV = .next (st 0xF8A0#16 true true 0x0000#16 false 8) := ⟨rfl, rfl, rfl, rfl⟩

theorem witness_StepRunsDecodedCommand :
    (sV_at [offer 0x0300FFFF#32]).wasReset = true ∧
    (sV_at [offer 0x0300FFFF#32]).edges = offer 0x0300FFFF#32 :: [] ∧ (offer 0x0300FFFF#32).rst = false ∧
    (offer 0x0300FFFF#32).cmdValid = true ∧ (offer 0x0300FFFF#32).blockReady = true ∧
    decode (offer 0x0300FFFF#32).cmdData = .ok (.check 0xFFFF#16) := by decide

theorem witness_IllegalWordTakesException :
    (sV_at [offer 0x03010000#32]).wasReset = true ∧
    (sV_at [offer 0x03010000#32]).edges = offer 0x03010000#32 :: [] ∧ (offer 0x03010000#32).rst = false ∧
    (offer 0x03010000#32).cmdValid = true ∧ (offer 0x03010000#32).blockReady = true ∧
    decode (offer 0x03010000#32).cmdData = .error .reservedBitsSet := by decide

theorem witness_ResetState_edge : (sV_at [resetEdge]).edges = resetEdge :: [] ∧ resetEdge.rst = true := by decide
theorem witness_ResetState_before : sU.wasReset = false := by decide

theorem witness_CommandBeforeResetFaults :
    ({ sU with edges := [offer 0x00000000#32] } : State).edges = offer 0x00000000#32 :: [] ∧
    ({ sU with edges := [offer 0x00000000#32] } : State).wasReset = false ∧ accepted (offer 0x00000000#32) = true := by
  decide

theorem witness_ResetDominates :
    (sV_at [{ offer 0x02000012#32 with rst := true }, offer (encode (.byte 0x12#8))]).edges =
      { offer 0x02000012#32 with rst := true } :: offer (encode (.byte 0x12#8)) :: [] ∧
    ({ offer 0x02000012#32 with rst := true } : Edge).rst = true := by decide

theorem witness_PendingCommandRunsAfterReset :
    (sV_at [{ offer 0x0300FFFF#32 with rst := true }, offer (encode (.check 0xFFFF#16))]).edges =
      { offer 0x0300FFFF#32 with rst := true } :: offer (encode (.check 0xFFFF#16)) :: [] ∧
    ({ offer 0x0300FFFF#32 with rst := true } : Edge).rst = true := by decide

theorem witness_EdgeWithoutCommandHolds :
    (sV_at [offerUnready 0x00000000#32]).edges = offerUnready 0x00000000#32 :: [] ∧
    (offerUnready 0x00000000#32).rst = false ∧ (offerUnready 0x00000000#32).blockReady = false ∧
    (sV_at [busyEdge none]).edges = busyEdge none :: [] ∧ (busyEdge none).rst = false ∧
    (busyEdge none).cmdValid = false := by decide

theorem witness_QuietHostHolds : State.reset.edges = [] := by decide

theorem witness_ErrorBitOfConsumedWords :
    decode 0x00000001#32 = .error .operandNotZero ∧ decode 0x00000000#32 = .ok .nop := by decide

theorem witness_VerdictAndStoredOfConsumedWords_check : decode 0x0300FFFF#32 = .ok (.check 0xFFFF#16) := by decide
theorem witness_VerdictAndStoredOfConsumedWords_other (v : Half) : decode 0x00000000#32 ≠ .ok (.check v) := by
  rw [show decode 0x00000000#32 = .ok .nop from by decide]
  simp

theorem witness_ErrorBitLife_illegal :
    ∃ t, step (sV_at [offer 0x04000000#32]) = .next t ∧ ¬ NextIsReset (sV_at [offer 0x04000000#32]) ∧
      NextConsumes (sV_at [offer 0x04000000#32]) 0x04000000#32 ∧
      decode 0x04000000#32 = .error (.unknownOpcode 0x04#8) ∧ t.err = true :=
  ⟨_, rfl, (consumes_offer _ _).2, (consumes_offer _ _).1, by decide, rfl⟩
theorem witness_ErrorBitLife_legal :
    ∃ t, step (sV_at [offer 0x00000000#32]) = .next t ∧ ¬ NextIsReset (sV_at [offer 0x00000000#32]) ∧ t.err = false :=
  ⟨_, rfl, (consumes_offer _ _).2, rfl⟩
theorem witness_ErrorBitLife_reset :
    ∃ t, step (sV_at [resetEdge]) = .next t ∧ NextIsReset (sV_at [resetEdge]) :=
  ⟨_, rfl, resetEdge, [], rfl, rfl⟩
theorem witness_ErrorBitLife_goes_on : (sV_at [offer 0xFFFFFFFF#32]).wasReset = true := by decide

theorem witness_StoredLife_check :
    ∃ t, step (sV_at [offer (encode (.check 0x0000#16))]) = .next t ∧
      ¬ NextIsReset (sV_at [offer (encode (.check 0x0000#16))]) ∧
      NextConsumes (sV_at [offer (encode (.check 0x0000#16))]) (encode (.check 0x0000#16)) :=
  ⟨_, rfl, (consumes_offer _ _).2, (consumes_offer _ _).1⟩
theorem witness_StoredLife_none :
    ∃ t, step (sV_at [offerUnready 0x03000000#32]) = .next t ∧ ¬ NextIsReset (sV_at [offerUnready 0x03000000#32]) ∧
      ∀ v, ¬ NextConsumes (sV_at [offerUnready 0x03000000#32]) (encode (.check v)) :=
  ⟨_, rfl, (consumes_nothing _ _).2, fun _ => (consumes_nothing _ _).1 _⟩

theorem witness_CommandIndexLife_counts :
    ∃ t, step (sV_at [offer 0x04000000#32]) = .next t ∧ ¬ NextIsReset (sV_at [offer 0x04000000#32]) ∧
      NextConsumes (sV_at [offer 0x04000000#32]) 0x04000000#32 :=
  ⟨_, rfl, (consumes_offer _ _).2, (consumes_offer _ _).1⟩
theorem witness_CommandIndexLife_holds :
    ∃ t, step (sV_at [offerUnready 0x00000000#32]) = .next t ∧
      ¬ NextIsReset (sV_at [offerUnready 0x00000000#32]) ∧
      ∀ w, ¬ NextConsumes (sV_at [offerUnready 0x00000000#32]) w :=
  ⟨_, rfl, (consumes_nothing _ _).2, (consumes_nothing _ _).1⟩

theorem witness_VerdictValidLife_check :
    ∃ t, step (sV_at [offer (encode (.check 0xFFFF#16))]) = .next t ∧
      ¬ NextIsReset (sV_at [offer (encode (.check 0xFFFF#16))]) ∧
      NextConsumes (sV_at [offer (encode (.check 0xFFFF#16))]) (encode (.check 0xFFFF#16)) ∧ t.vld = true :=
  ⟨_, rfl, (consumes_offer _ _).2, (consumes_offer _ _).1, rfl⟩
theorem witness_VerdictValidLife_kept :
    ∃ t, step (sV_at [offer (encode .nop)]) = .next t ∧ ¬ NextIsReset (sV_at [offer (encode .nop)]) ∧
      sV.vld = true ∧ ¬ NextConsumes (sV_at [offer (encode .nop)]) (encode .init) ∧ t.vld = true :=
  ⟨_, rfl, (consumes_offer _ _).2, rfl, consumes_only _ _ _ (by decide), rfl⟩

theorem witness_CrcRegisterLife_init :
    ∃ t, step (sV_at [offer (encode .init)]) = .next t ∧ ¬ NextIsReset (sV_at [offer (encode .init)]) ∧
      NextConsumes (sV_at [offer (encode .init)]) (encode .init) :=
  ⟨_, rfl, (consumes_offer _ _).2, (consumes_offer _ _).1⟩
theorem witness_CrcRegisterLife_byte :
    ∃ t, step (sV_at [offer (encode (.byte 0xFF#8))]) = .next t ∧
      ¬ NextIsReset (sV_at [offer (encode (.byte 0xFF#8))]) ∧
      NextConsumes (sV_at [offer (encode (.byte 0xFF#8))]) (encode (.byte 0xFF#8)) :=
  ⟨_, rfl, (consumes_offer _ _).2, (consumes_offer _ _).1⟩
theorem witness_CrcRegisterLife_kept :
    ∃ t, step (sV_at [offerUnready 0x01000000#32]) = .next t ∧
      ¬ NextIsReset (sV_at [offerUnready 0x01000000#32]) ∧
      ¬ NextConsumes (sV_at [offerUnready 0x01000000#32]) (encode .init) ∧
      ∀ d, ¬ NextConsumes (sV_at [offerUnready 0x01000000#32]) (encode (.byte d)) :=
  ⟨_, rfl, (consumes_nothing _ _).2, (consumes_nothing _ _).1 _, fun _ => (consumes_nothing _ _).1 _⟩

theorem witness_VerdictInvariantKept :
    VerdictInv (sV_at [offer 0x03000000#32]) ∧
    goesTo (step (sV_at [offer 0x03000000#32])) (st 0xF8A0#16 true true 0x0000#16 false 8) = true := by decide

theorem witness_UnreadRegistersNeverMatter_next :
    AgreeOnRead (sV_at [offer 0x03000000#32]) { sV_at [offer 0x03000000#32] with stored := 0#16, err := true, cix := 0 } ∧
    ∃ t, step (sV_at [offer 0x03000000#32]) = .next t :=
  ⟨by decide, _, rfl⟩
theorem witness_UnreadRegistersNeverMatter_fault :
    AgreeOnRead { sU with edges := [offer 0#32] } { sU with edges := [offer 0#32], err := true } ∧
    step { sU with edges := [offer 0#32] } = .fault .beforeReset :=
  ⟨by decide, rfl⟩

theorem witness_StatusLayout :
    sV.wasReset = true ∧ ∃ t, step (sV_at [offerUnready 0x01000000#32]) = .next t ∧
      ¬ NextIsReset (sV_at [offerUnready 0x01000000#32]) ∧
      ∀ w, ¬ NextConsumes (sV_at [offerUnready 0x01000000#32]) w :=
  ⟨rfl, _, rfl, (consumes_nothing _ _).2, (consumes_nothing _ _).1⟩

theorem witness_StaleVerdictRefused_read :
    sV.wasReset = true ∧ sV.vld = true ∧ State.reset.wasReset = true ∧ State.reset.vld = false := by decide
theorem witness_StaleVerdictRefused_taken :
    (∃ t, exec .init sV = .next t) ∧ ∃ t, exec (.byte 0x00#8) sV = .next t := ⟨⟨_, rfl⟩, _, rfl⟩

theorem witness_BitStepArithmetic :
    (0x7FFF#16 : Half).toNat < 2 ^ 15 ∧ 2 ^ 15 ≤ (0x8000#16 : Half).toNat := by decide

theorem witness_ChecksumDefinition : 5 ≤ bytesA.length ∧ bytesA.length < 6 := by decide

theorem witness_EngineIsLinear : bytesA.length = [0x00#8, 0x00#8, 0x01#8, 0x10#8, 0x21#8].length := by decide

theorem witness_ChecksumRun :
    [Instr.nop, .init, .nop, .byte 0x12#8, .nop].filter (fun i => i ≠ .nop) = crcCommands [0x12#8] := by decide

theorem witness_VerifyRun :
    (packet 0x01#8 [0x12#8] 0xD383#16).wellFormed = true ∧
    [Instr.init, .nop, .byte 0x12#8, .nop, .check 0xD383#16, .nop].filter (fun i => i ≠ .nop) =
      verifyCommands (packet 0x01#8 [0x12#8] 0xD383#16) := by decide +kernel
theorem witness_VerifyRun_empty :
    [Instr.init, .check 0xFFFF#16].filter (fun i => i ≠ .nop) = verifyCommands (packet 0x00#8 [] 0xFFFF#16) := by
  decide +kernel

theorem witness_BytesContinueWithoutInit :
    Instr.init ∉ [Instr.byte 0x12#8, .check 0xFFFF#16, .nop, .byte 0x34#8] := by decide

theorem witness_ObservationAfterEachCommand :
    [0x01000000#32, 0x04000000#32] = [0x01000000#32] ++ 0x04000000#32 :: [] := by decide

theorem witness_HandshakeRefinesCommandStream :
    (sV_at [offerUnready 0x02000012#32, offer 0x02000012#32]).wasReset = true ∧
    ∀ e ∈ (sV_at [offerUnready 0x02000012#32, offer 0x02000012#32]).edges, e.rst = false := by decide

theorem witness_LatencyIsInvisible :
    (∀ k, 1 ≤ (fun _ : Nat => 8) k) ∧
    (sV_at (pacedEdges (fun _ => 8) [0x01000000#32, 0x02000012#32])).wasReset = true ∧
    (sV_at (pacedEdges (fun _ => 8) [0x01000000#32, 0x02000012#32])).edges =
      pacedEdges (fun _ => 8) [0x01000000#32, 0x02000012#32] :=
  ⟨fun _ => (by decide : 1 ≤ 8), rfl, rfl⟩

theorem witness_LastResetStartsTheRun :
    (sV_at [offer 0x04000000#32, resetEdge, offer 0x01000000#32]).wasReset = true ∧
    (sV_at [offer 0x04000000#32, resetEdge, offer 0x01000000#32]).edges =
      [offer 0x04000000#32] ++ resetEdge :: [offer 0x01000000#32] ∧
    resetEdge.rst = true ∧ ∀ x ∈ [offer 0x01000000#32], x.rst = false := by decide

theorem witness_LastResetStartsTheRun_unreset :
    sU.wasReset = false ∧
    (∀ x ∈ [offerUnready 0x01000000#32], accepted x = false) ∧
    ({ sU with edges := [offerUnready 0x01000000#32, resetEdge, offer 0x01000000#32] } : State).edges =
      [offerUnready 0x01000000#32] ++ resetEdge :: [offer 0x01000000#32] := by decide

theorem witness_PayloadOrder :
    (packet 0x32#8 [] 0#16).wellFormed = true ∧ 49 < (packet 0x32#8 [] 0#16).length.toNat := by decide

theorem witness_TailAndIdNeverInfluence :
    packetA.length = { packetA with id := 0xFF#8 }.length ∧
    packetA.storedChecksum = { packetA with id := 0xFF#8 }.storedChecksum ∧
    ∀ (i : Nat) (h : i < 50), i < packetA.length.toNat →
      packetA.payload[i] = ({ packetA with id := 0xFF#8 } : Packet).payload[i] :=
  ⟨rfl, rfl, fun _ _ _ => rfl⟩

theorem witness_IllFormedPacketRefused :
    50 < (packet 0x33#8 [] 0#16).length.toNat ∧ (packet 0x32#8 [] 0#16).length.toNat ≤ 50 := by decide

theorem witness_AssemblerExpansion :
    (255 < 2 ^ 8 ∧ 2 ^ 8 ≤ 256) ∧ (65535 < 2 ^ 16 ∧ 2 ^ 16 ≤ 65536) ∧
    (4294967295 < 2 ^ 32 ∧ 2 ^ 32 ≤ 4294967296) ∧
    (∀ n ∈ [0, 255], n < 2 ^ 8) ∧ ∃ n ∈ [0, 256], 2 ^ 8 ≤ n := by decide

theorem witness_NoFalseAlarm :
    packetA.wellFormed = true ∧ packetA.storedChecksum = computeChecksum (packetBytes packetA) ∧
    packetBytes packetA = [0x12#8, 0x34#8, 0x56#8, 0x78#8, 0x9A#8] ∧ packetA.storedChecksum = 0xF8A0#16 := by
  decide +kernel

/-- Every pattern below is five bytes long, as scenario A's packet asks. -/
theorem streamBit_short {e : List Byte} (hl : e.length = 5) {P : Nat → Prop}
    (h : ∀ k, k < 40 → streamBit e k = true → P k) : ∀ k, streamBit e k = true → P k := by
  intro k hk
  by_cases hlt : k < 40
  · exact h k hlt hk
  · rw [streamBit_beyond (by omega)] at hk
    cases hk

theorem witness_GuaranteedDetection_packet :
    packetA.wellFormed = true ∧ packetA.storedChecksum = computeChecksum (packetBytes packetA) ∧
    [0x00#8, 0x00#8, 0xEA#8, 0x00#8, 0x00#8].length = packetA.length.toNat := by decide +kernel
theorem witness_GuaranteedDetection_single :
    GuaranteedDetectable [0x00#8, 0x00#8, 0x00#8, 0x00#8, 0x01#8] :=
  ⟨⟨39, by decide, by decide⟩, .inl (by decide)⟩
theorem witness_GuaranteedDetection_burst :
    GuaranteedDetectable [0x00#8, 0x01#8, 0xFF#8, 0xFE#8, 0x00#8] :=
  ⟨⟨15, by decide, by decide⟩, .inr (.inl ⟨15, streamBit_short rfl (by decide)⟩)⟩
theorem witness_GuaranteedDetection_two :
    GuaranteedDetectable [0x80#8, 0x00#8, 0x00#8, 0x00#8, 0x01#8] := by
  refine ⟨⟨0, by decide, by decide⟩, .inr (.inr (.inl ⟨0, 39, by decide, by decide, fun k => ⟨?_, ?_⟩⟩))⟩
  · exact streamBit_short (P := fun k => k = 0 ∨ k = 39) rfl (by decide) k
  · rintro (rfl | rfl) <;> decide
theorem witness_GuaranteedDetection_odd :
    GuaranteedDetectable [0x80#8, 0x00#8, 0x01#8, 0x00#8, 0x01#8] :=
  ⟨⟨0, by decide, by decide⟩, .inr (.inr (.inr (by decide)))⟩

theorem witness_DetectedExactlyByCrcOfPattern :
    packetA.wellFormed = true ∧ packetA.storedChecksum = computeChecksum (packetBytes packetA) ∧
    [0x00#8, 0x00#8, 0x01#8, 0x10#8, 0x21#8].length = packetA.length.toNat := by decide +kernel

theorem witness_GeneratorPatternUndetected : packetA.wellFormed = true ∧ 2 + 3 ≤ packetA.length.toNat := by decide

end Sys2Proof.Tests
end

section
/-! The life of `vld`, `stored` and `err` over one consumed word (10_state.md R16, R18, R19; 60_exceptions.md R73, R74):
first each command's own rule, then a consumed word, legal or not, then the two statements. -/

namespace Sys2Proof.Machine

/-! One command. -/

/-- No command stops the block (60_exceptions.md R76). -/
theorem exec_answers (i : Instr) (s : State) : ∃ t, exec i s = .next t := by
  cases i <;> exact ⟨_, rfl⟩

/-- No command reads `err` (10_state.md R19). -/
theorem exec_withErr {i : Instr} {s t : State} (h : exec i s = .next t) (b : Bool) :
    exec i { s with err := b } = .next { t with err := b } := by
  cases i <;> cases h <;> rfl

/-- No command reads `stored` (10_state.md R18). -/
theorem exec_withStored {i : Instr} {s t : State} (h : exec i s = .next t) (v : Half) :
    ∃ u, exec i { s with stored := v } = .next u ∧ { u with stored := t.stored } = t := by
  cases i <;> cases h <;> exact ⟨_, rfl, rfl⟩

theorem exec_vld_iff {i : Instr} {s t : State} (h : exec i s = .next t) :
    t.vld = true ↔ (∃ v, i = .check v) ∨ (s.vld = true ∧ i ≠ .init ∧ ∀ d, i ≠ .byte d) := by
  cases i <;> cases h <;> simp

/-- CHECK alone writes `stored` (10_state.md R18). -/
theorem exec_stored_of_not_check {i : Instr} {s t : State} (h : exec i s = .next t) (hi : ∀ v, i ≠ .check v) :
    t.stored = s.stored := by
  cases i with
  | nop => cases h; rfl
  | init => cases h; rfl
  | byte d => cases h; rfl
  | check v => exact absurd rfl (hi v)

/-! One consumed word. -/

/-- No word, legal or not, stops the block (60_exceptions.md R74). -/
theorem consume_answers (w : Word) (s : State) : ∃ t, consume w s = .next t := by
  cases hd : decode w with
  | ok i => rw [consume_legal hd]; exact exec_answers i s
  | error r => exact ⟨_, consume_illegal hd s⟩

theorem consume_err_iff {w : Word} {s t : State} (h : consume w s = .next t) :
    t.err = true ↔ s.err = true ∨ ∃ r, decode w = .error r := by
  obtain ⟨i, hd, hi⟩ | ⟨r, hd, rfl⟩ := consume_cases h
  · simp [hd, (exec_common hi).1]
  · simp [hd]

theorem consume_withErr_of_legal {w : Word} {i : Instr} (hd : decode w = .ok i) {s t : State}
    (h : consume w s = .next t) (b : Bool) : consume w { s with err := b } = .next { t with err := b } := by
  rw [consume_legal hd] at h ⊢
  exact exec_withErr h b

theorem consume_vld_iff {w : Word} {s t : State} (h : consume w s = .next t) :
    t.vld = true ↔ (∃ v, decode w = .ok (.check v)) ∨
      (s.vld = true ∧ decode w ≠ .ok .init ∧ ∀ d, decode w ≠ .ok (.byte d)) := by
  obtain ⟨i, hd, hi⟩ | ⟨r, hd, rfl⟩ := consume_cases h
  · simpa [hd] using exec_vld_iff hi
  · simp [hd]

/-- A CHECK latches its operand and the comparison with the old `crc` (41_detector.md R63). -/
theorem consume_check {w : Word} {v : Half} (hd : decode w = .ok (.check v)) {s t : State}
    (h : consume w s = .next t) : t.stored = v ∧ t.corrupted = decide (s.crc ≠ v) := by
  rw [consume_legal hd] at h
  cases h
  exact ⟨rfl, rfl⟩

theorem consume_stored_of_not_check {w : Word} {s t : State} (h : consume w s = .next t)
    (hw : ∀ v, decode w ≠ .ok (.check v)) : t.stored = s.stored := by
  obtain ⟨i, hd, hi⟩ | ⟨r, -, rfl⟩ := consume_cases h
  · exact exec_stored_of_not_check hi fun v hv => hw v (hv ▸ hd)
  · rfl

/-- Nothing that a word does depends on `stored`, the exception included (10_state.md R18). -/
theorem consume_withStored {w : Word} {s t : State} (h : consume w s = .next t) (v : Half) :
    ∃ u, consume w { s with stored := v } = .next u ∧ { u with stored := t.stored } = t := by
  obtain ⟨i, hd, hi⟩ | ⟨r, hd, rfl⟩ := consume_cases h
  · rw [consume_legal hd]
    exact exec_withStored hi v
  · exact ⟨_, consume_illegal hd _, rfl⟩

/-! The statements. -/

/-- Settles O56, from what a consumed word can do: a command's own rule, which neither reads nor writes `err`, or the
exception. -/
theorem errorBitOfConsumedWords : Obligations.ErrorBitOfConsumedWords := by
  refine ⟨rfl, applyReset_err, fun w s => ?_⟩
  obtain ⟨t, ht⟩ := consume_answers w s
  refine ⟨t, ht, consume_err_iff ht, fun r hd => ?illegal, fun i hd => ?legal⟩
  case illegal =>
    rw [consume_illegal hd] at ht
    cases ht
    rfl
  case legal =>
    have hi : exec i s = .next t := consume_legal hd s ▸ ht
    exact ⟨hi, (exec_common hi).1, consume_withErr_of_legal hd ht⟩

/-- Settles O57, clause by clause from the rules of a consumed word. -/
theorem verdictAndStoredOfConsumedWords : Obligations.VerdictAndStoredOfConsumedWords := by
  refine ⟨⟨rfl, rfl⟩, fun w s => ?_⟩
  obtain ⟨t, ht⟩ := consume_answers w s
  exact ⟨t, ht, consume_vld_iff ht, fun v hd => consume_check hd ht, consume_stored_of_not_check ht,
    consume_withStored ht⟩

end Sys2Proof.Machine
end

section
/-! The order of a VERIFY run (20_memory.md R30): the bytes a packet sends by index, then the commands of the run by
place. -/

namespace Sys2Proof.Machine

/-- Below `length`, byte `i` sent is `payload[i]` (20_memory.md R28). -/
theorem packetBytes_getElem? (p : Packet) {i : Nat} (h50 : i < 50) (hi : i < p.length.toNat) :
    (packetBytes p)[i]? = some p.payload[i] := by
  simp [packetBytes, List.getElem?_take_of_lt hi, h50]

theorem verifyCommands_zero (p : Packet) : (verifyCommands p)[0]? = some .init := rfl

/-- INIT moves every byte one place on. -/
theorem verifyCommands_of_packetBytes {p : Packet} {i : Nat} {d : Byte} (h : (packetBytes p)[i]? = some d) :
    (verifyCommands p)[i + 1]? = some (.byte d) := by
  obtain ⟨hi, rfl⟩ := List.getElem?_eq_some_iff.mp h
  simp [verifyCommands, crcCommands, List.getElem?_append_left, hi]

/-- CHECK stands right after the last byte. -/
theorem verifyCommands_check (p : Packet) :
    (verifyCommands p)[(packetBytes p).length + 1]? = some (.check p.storedChecksum) := by
  simp [verifyCommands, crcCommands]

theorem verifyCommands_length (p : Packet) : (verifyCommands p).length = (packetBytes p).length + 2 := by
  simp [verifyCommands, crcCommands]

/-- Settles O46, place by place; a well-formed packet sends `length` bytes, and R30's two examples are computed. -/
theorem payloadOrder : Obligations.PayloadOrder := by
  refine ⟨fun p hp => ?run, by decide +kernel, by decide +kernel⟩
  have hlen : (packetBytes p).length = p.length.toNat := packetBytes_length hp
  rw [← hlen]
  exact ⟨verifyCommands_zero p,
    fun i h50 hi => verifyCommands_of_packetBytes (packetBytes_getElem? p h50 (hlen ▸ hi)),
    verifyCommands_check p, verifyCommands_length p⟩

end Sys2Proof.Machine
end

section
/-! The command words by their fields (30_encoding.md R38 to R45): a word is its three fields, each command has one
word, the decoder reads exactly these words, and they are counted. -/

namespace Sys2Proof

open Sys2Proof.Machine

/-! A word and its fields. -/

theorem append_eq_append_iff {m n : Nat} {a a' : BitVec m} {b b' : BitVec n} :
    a ++ b = a' ++ b' ↔ a = a' ∧ b = b' := by
  constructor
  · intro h
    have hl := congrArg (BitVec.extractLsb' n m) h
    have hr := congrArg (BitVec.extractLsb' 0 n) h
    rw [BitVec.extractLsb'_append_eq_left, BitVec.extractLsb'_append_eq_left] at hl
    rw [BitVec.extractLsb'_append_eq_right, BitVec.extractLsb'_append_eq_right] at hr
    exact ⟨hl, hr⟩
  · rintro ⟨rfl, rfl⟩
    rfl

theorem packWord_fields (w : Word) : packWord (opField w) (rsvField w) (opndField w) = w :=
  calc opField w ++ rsvField w ++ opndField w
    _ = w.extractLsb' 16 16 ++ opndField w :=
      congrArg (· ++ opndField w) (BitVec.extractLsb'_append_extractLsb'_eq_extractLsb' rfl)
    _ = w.extractLsb' 0 32 := BitVec.extractLsb'_append_extractLsb'_eq_extractLsb' rfl
    _ = w := BitVec.extractLsb'_eq_self

theorem byteHighField_append_byteField (w : Word) : byteHighField w ++ byteField w = opndField w :=
  BitVec.extractLsb'_append_extractLsb'_eq_extractLsb' rfl

theorem packWord_eq_packWord_iff {op op' rsv rsv' : Byte} {opnd opnd' : Half} :
    packWord op rsv opnd = packWord op' rsv' opnd' ↔ op = op' ∧ rsv = rsv' ∧ opnd = opnd' := by
  rw [packWord, packWord, append_eq_append_iff, append_eq_append_iff, and_assoc]

theorem eq_packWord_iff {w : Word} {op rsv : Byte} {opnd : Half} :
    w = packWord op rsv opnd ↔ opField w = op ∧ rsvField w = rsv ∧ opndField w = opnd := by
  rw [← packWord_eq_packWord_iff, packWord_fields]

/-- A mask that keeps `OP` and `RSV` whole, as both masks of R43 do. -/
theorem and_mask_eq_packWord_iff {w : Word} {m : Half} {op rsv : Byte} {opnd : Half} :
    w &&& packWord 0xFF#8 0xFF#8 m = packWord op rsv opnd ↔
      opField w = op ∧ rsvField w = rsv ∧ opndField w &&& m = opnd := by
  have hmask : w &&& packWord 0xFF#8 0xFF#8 m = packWord (opField w) (rsvField w) (opndField w &&& m) :=
    calc w &&& packWord 0xFF#8 0xFF#8 m
      _ = packWord (opField w) (rsvField w) (opndField w) &&& packWord 0xFF#8 0xFF#8 m := by rw [packWord_fields]
      _ = (opField w ++ rsvField w &&& BitVec.allOnes 16) ++ (opndField w &&& m) := BitVec.and_append
      _ = opField w ++ rsvField w ++ (opndField w &&& m) := by rw [BitVec.and_allOnes]
  rw [hmask, packWord_eq_packWord_iff]

/-! The word of each command, and the two masked tests of R43. -/

theorem eq_encode_nop_iff {w : Word} :
    w = encode .nop ↔ opField w = 0x00#8 ∧ rsvField w = 0x00#8 ∧ opndField w = 0x0000#16 :=
  eq_packWord_iff

theorem eq_encode_init_iff {w : Word} :
    w = encode .init ↔ opField w = 0x01#8 ∧ rsvField w = 0x00#8 ∧ opndField w = 0x0000#16 :=
  eq_packWord_iff

theorem eq_encode_byte_iff {w : Word} {d : Byte} :
    w = encode (.byte d) ↔
      opField w = 0x02#8 ∧ rsvField w = 0x00#8 ∧ byteHighField w = 0x00#8 ∧ byteField w = d := by
  rw [← append_eq_append_iff, byteHighField_append_byteField]
  exact eq_packWord_iff

theorem eq_encode_check_iff {w : Word} {v : Half} :
    w = encode (.check v) ↔ opField w = 0x03#8 ∧ rsvField w = 0x00#8 ∧ opndField w = v :=
  eq_packWord_iff

theorem byteMask_iff {w : Word} : w &&& 0xFFFFFF00#32 = 0x02000000#32 ↔ w = encode (.byte (byteField w)) := by
  have hhigh : opndField w &&& (0xFF#8 ++ 0x00#8) = 0x00#8 ++ 0x00#8 ↔ byteHighField w = 0x00#8 := by
    rw [← byteHighField_append_byteField, BitVec.and_append, append_eq_append_iff,
      show (0xFF#8 : Byte) = BitVec.allOnes 8 from rfl, BitVec.and_allOnes]
    simp
  rw [show 0xFFFFFF00#32 = packWord 0xFF#8 0xFF#8 (0xFF#8 ++ 0x00#8) from rfl,
    show 0x02000000#32 = packWord 0x02#8 0x00#8 (0x00#8 ++ 0x00#8) from rfl, and_mask_eq_packWord_iff, hhigh]
  simp [eq_encode_byte_iff]

theorem checkMask_iff {w : Word} : w &&& 0xFFFF0000#32 = 0x03000000#32 ↔ w = encode (.check (opndField w)) := by
  rw [show 0xFFFF0000#32 = packWord 0xFF#8 0xFF#8 0x0000#16 from rfl,
    show 0x03000000#32 = packWord 0x03#8 0x00#8 0x0000#16 from rfl, and_mask_eq_packWord_iff]
  simp [eq_encode_check_iff]

/-! The decoder reads each command's word and no other. -/

/-- `decode` with each clause's test told as "is the word of that command" (30_encoding.md R43). -/
theorem decode_eq_ite (w : Word) :
    decode w =
      if w = encode .nop then .ok .nop
      else if w = encode .init then .ok .init
      else if w = encode (.byte (byteField w)) then .ok (.byte (byteField w))
      else if w = encode (.check (opndField w)) then .ok (.check (opndField w))
      else .error (illegalReason w) := by
  simp only [decode, ← byteMask_iff, ← checkMask_iff]
  rfl

theorem decode_eq_ok_iff {w : Word} {i : Instr} : decode w = .ok i ↔ w = encode i := by
  constructor
  · intro h
    rw [decode_eq_ite] at h
    split_ifs at h <;> cases h <;> assumption
  · intro h
    rw [decode_eq_ite]
    cases i with
    | nop => rw [if_pos h]
    | init =>
      obtain ⟨hop, -⟩ := eq_encode_init_iff.mp h
      rw [if_neg (by simp [eq_encode_nop_iff, hop]), if_pos h]
    | byte d =>
      obtain ⟨hop, -, -, hd⟩ := eq_encode_byte_iff.mp h
      rw [if_neg (by simp [eq_encode_nop_iff, hop]), if_neg (by simp [eq_encode_init_iff, hop]), hd, if_pos h]
    | check v =>
      obtain ⟨hop, -, hv⟩ := eq_encode_check_iff.mp h
      rw [if_neg (by simp [eq_encode_nop_iff, hop]), if_neg (by simp [eq_encode_init_iff, hop]),
        if_neg (by simp [eq_encode_byte_iff, hop]), hv, if_pos h]

theorem decode_encode (i : Instr) : decode (encode i) = .ok i :=
  decode_eq_ok_iff.mpr rfl

theorem encode_injective : Function.Injective encode := fun i j h =>
  Except.ok.inj ((decode_encode i).symm.trans (h ▸ decode_encode j))

theorem decode_error_iff {w : Word} : (∃ r, decode w = .error r) ↔ ∀ i, w ≠ encode i := by
  simp only [ne_eq, ← decode_eq_ok_iff]
  cases decode w <;> simp

/-! Which words are illegal (30_encoding.md R44). -/

/-- The rows of R39's table, and the opcodes above it. -/
theorem opcode_cases (op : Byte) : op = 0x00#8 ∨ op = 0x01#8 ∨ op = 0x02#8 ∨ op = 0x03#8 ∨ 0x04#8 ≤ op := by
  bv_omega

/-- The four commands one by one. -/
theorem forall_ne_encode_iff {w : Word} :
    (∀ i, w ≠ encode i) ↔ w ≠ encode .nop ∧ w ≠ encode .init ∧ (∀ d, w ≠ encode (.byte d)) ∧
      ∀ v, w ≠ encode (.check v) := by
  constructor
  · exact fun h => ⟨h _, h _, fun _ => h _, fun _ => h _⟩
  · rintro ⟨hnop, hinit, hbyte, hcheck⟩ (_ | _ | d | v)
    exacts [hnop, hinit, hbyte d, hcheck v]

theorem illegal_iff (w : Word) :
    (∃ r, decode w = .error r) ↔
      (0x04#8 ≤ opField w) ∨
      (opField w ≤ 0x03#8 ∧ rsvField w ≠ 0x00#8) ∨
      ((opField w = 0x00#8 ∨ opField w = 0x01#8) ∧ opndField w ≠ 0x0000#16) ∨
      (opField w = 0x02#8 ∧ byteHighField w ≠ 0x00#8) := by
  rw [decode_error_iff, forall_ne_encode_iff]
  simp only [ne_eq, eq_encode_nop_iff, eq_encode_init_iff, eq_encode_byte_iff, eq_encode_check_iff]
  obtain hop | hop | hop | hop | hop := opcode_cases (opField w)
  · simp [hop, ← imp_iff_not_or]
  · simp [hop, ← imp_iff_not_or]
  · simp [hop, ← imp_iff_not_or]
  · simp [hop]
  · have hne : ∀ k < 0x04#8, opField w ≠ k := fun k hk heq => absurd (heq ▸ hop) (BitVec.not_le.mpr hk)
    simp [hop, hne]

/-! The legal words, counted (30_encoding.md R44). -/

/-- Every value of width `n`. -/
def allBitVecs (n : Nat) : List (BitVec n) := (List.finRange (2 ^ n)).map BitVec.ofFin

/-- Every command once: NOP, INIT, one BYTE per byte, one CHECK per 16-bit operand. -/
def allInstrs : List Instr :=
  [.nop, .init] ++ ((allBitVecs 8).map .byte ++ (allBitVecs 16).map .check)

theorem allBitVecs_length (n : Nat) : (allBitVecs n).length = 2 ^ n := by
  simp [allBitVecs]

theorem allBitVecs_nodup (n : Nat) : (allBitVecs n).Nodup :=
  (List.nodup_finRange _).map fun _ _ h => congrArg BitVec.toFin h

theorem mem_allBitVecs {n : Nat} (x : BitVec n) : x ∈ allBitVecs n :=
  List.mem_map.mpr ⟨x.toFin, List.mem_finRange _, rfl⟩

theorem mem_allInstrs (i : Instr) : i ∈ allInstrs := by
  cases i <;> simp [allInstrs, mem_allBitVecs]

theorem allInstrs_nodup : allInstrs.Nodup := by
  have hbyte : ((allBitVecs 8).map Instr.byte).Nodup := (allBitVecs_nodup 8).map fun _ _ => Instr.byte.inj
  have hcheck : ((allBitVecs 16).map Instr.check).Nodup := (allBitVecs_nodup 16).map fun _ _ => Instr.check.inj
  simp [allInstrs, List.nodup_append, hbyte, hcheck]

theorem allInstrs_length : allInstrs.length = 65794 := by
  rw [allInstrs, List.length_append, List.length_append, List.length_map, List.length_map, allBitVecs_length,
    allBitVecs_length]
  rfl

/-- The words of all commands. -/
def legalWords : List Word := allInstrs.map encode

theorem legalWords_nodup : legalWords.Nodup :=
  allInstrs_nodup.map encode_injective

theorem legalWords_length : legalWords.length = 65794 := by
  rw [legalWords, List.length_map, allInstrs_length]

theorem mem_legalWords_iff (w : Word) : w ∈ legalWords ↔ ∃ i, decode w = .ok i := by
  simp only [legalWords, List.mem_map, mem_allInstrs, true_and, decode_eq_ok_iff, eq_comm (a := w)]

/-! The statements. -/

/-- Settles O4: a word decodes to a command exactly if it is the command's word, and that is told by its fields. -/
theorem fieldsDecideTheCommand : Obligations.FieldsDecideTheCommand := by
  intro w
  refine ⟨?_, decode_eq_ok_iff, ?_, decode_eq_ok_iff, fun d => ?_, fun v => ?_, fun hop => ?_⟩
  · rw [decode_eq_ok_iff, eq_encode_nop_iff]
  · rw [decode_eq_ok_iff, eq_encode_init_iff]
  · rw [decode_eq_ok_iff, eq_encode_byte_iff]
  · rw [decode_eq_ok_iff, eq_encode_check_iff]
  · exact (illegal_iff w).mpr (.inl hop)

/-- Settles O5: the illegal words case by opcode, the legal ones listed command by command, and the exception. -/
theorem illegalWordsExactly : Obligations.IllegalWordsExactly :=
  ⟨illegal_iff, ⟨legalWords, legalWords_nodup, legalWords_length, mem_legalWords_iff⟩,
    fun _ _ s h => consume_illegal h s⟩

/-- Once the encoder gives the word, the round trip says that the decoder reads it back. -/
theorem encode_and_decode {i : Instr} {w : Word} (h : encode i = w) : encode i = w ∧ decode w = .ok i :=
  ⟨h, decode_eq_ok_iff.mpr h.symm⟩

/-- Settles O1: each legal word computed by the encoder, each illegal one by the decoder. -/
theorem workedEncodings : Obligations.WorkedEncodings :=
  ⟨encode_and_decode rfl, encode_and_decode rfl, encode_and_decode rfl, encode_and_decode rfl,
    encode_and_decode rfl, encode_and_decode rfl, by decide⟩

end Sys2Proof
end

section
/-! The engine's functions (40_crc_engine.md R47 to R50) and laws (R58 to R62). The idea under all of them: a bit step is
a shift XORed with the feedback of bit 15, and both are linear. So a value XORed into the register ahead of the bit steps
may as well be fed in at the feedback, its top bit first, and shifted along beside the register. -/

namespace Sys2Proof.Machine

/-! One bit step. -/

/-- What a feedback bit XORs into the shifted register (40_crc_engine.md R47, R58). -/
def feedback (b : Bool) : Half := if b = true then Config.poly else 0x0000#16

@[simp] theorem feedback_false : feedback false = 0x0000#16 := rfl

@[simp] theorem feedback_true : feedback true = Config.poly := rfl

theorem feedback_xor (a b : Bool) : feedback (a ^^ b) = feedback a ^^^ feedback b := by
  cases a <;> cases b <;> decide

theorem bitStep_eq (r : Half) : bitStep r = (r <<< 1) ^^^ feedback (r.getLsbD 15) := by
  rw [bitStep]
  cases r.getLsbD 15 <;> simp

theorem serialStep_eq (r : Half) (b : Bool) : serialStep r b = (r <<< 1) ^^^ feedback (r.getLsbD 15 ^^ b) := rfl

theorem bitStep_xor (a b : Half) : bitStep (a ^^^ b) = bitStep a ^^^ bitStep b := by
  simp only [bitStep_eq, BitVec.getLsbD_xor, feedback_xor, BitVec.shiftLeft_xor_distrib]
  ac_rfl

/-- A value XORed into the register is fed in by its top bit; the rest of it is shifted along. -/
theorem bitStep_xor_eq_serialStep (r x : Half) :
    bitStep (r ^^^ x) = serialStep r (x.getLsbD 15) ^^^ (x <<< 1) := by
  simp only [bitStep_eq, serialStep_eq, BitVec.getLsbD_xor, BitVec.shiftLeft_xor_distrib]
  ac_rfl

theorem getLsbD_fifteen (r : Half) : r.getLsbD 15 = decide (2 ^ 15 ≤ r.toNat) :=
  (BitVec.msb_eq_getLsbD_last r).symm.trans (BitVec.msb_eq_decide r)

theorem toNat_bitStep_of_lt {r : Half} (h : r.toNat < 2 ^ 15) : (bitStep r).toNat = 2 * r.toNat := by
  have htop : r.getLsbD 15 = false := (getLsbD_fifteen r).trans (decide_eq_false (Nat.not_le.mpr h))
  simp only [bitStep_eq, htop, feedback_false, BitVec.xor_zero, BitVec.toNat_shiftLeft, Nat.shiftLeft_eq]
  omega

theorem bitStep_of_le {r : Half} (h : 2 ^ 15 ≤ r.toNat) :
    bitStep r = BitVec.ofNat 16 (2 * r.toNat - 2 ^ 16) ^^^ Config.poly := by
  have htop : r.getLsbD 15 = true := (getLsbD_fifteen r).trans (decide_eq_true h)
  have hshift : r <<< 1 = BitVec.ofNat 16 (2 * r.toNat - 2 ^ 16) := by
    apply BitVec.eq_of_toNat_eq
    rw [BitVec.toNat_shiftLeft, BitVec.toNat_ofNat, Nat.shiftLeft_eq]
    omega
  rw [bitStep_eq, htop, hshift, feedback_true]

/-- The polynomial has bit 0 set, so bit 0 of the result tells which bit was discarded. -/
theorem getLsbD_zero_bitStep (r : Half) : (bitStep r).getLsbD 0 = r.getLsbD 15 := by
  rw [bitStep_eq]
  cases r.getLsbD 15 <;> simp [Config.poly]

theorem bitStep_injective : Function.Injective bitStep := by
  intro a b h
  have htop : a.getLsbD 15 = b.getLsbD 15 := by rw [← getLsbD_zero_bitStep, h, getLsbD_zero_bitStep]
  have hshift : a <<< 1 = b <<< 1 := by rwa [bitStep_eq, bitStep_eq, htop, BitVec.xor_left_inj] at h
  apply BitVec.eq_of_getLsbD_eq
  intro i hi
  obtain rfl | hlow : i = 15 ∨ i + 1 < 16 := by omega
  · exact htop
  · simpa [hlow, BitVec.getLsbD_eq_getElem hi] using congrArg (·.getLsbD (i + 1)) hshift

/-! Several bit steps. -/

theorem bitSteps_xor (n : Nat) (a b : Half) : bitSteps n (a ^^^ b) = bitSteps n a ^^^ bitSteps n b := by
  induction n generalizing a b with
  | zero => rfl
  | succ n ih => rw [bitSteps, bitStep_xor, ih, bitSteps, bitSteps]

theorem bitSteps_injective (n : Nat) : Function.Injective (bitSteps n) := by
  induction n with
  | zero => exact Function.injective_id
  | succ n ih => exact ih.comp bitStep_injective

/-- The top `n` bits of a value, in the order in which shifting left brings them to bit 15. -/
def topBits : Nat → Half → List Bool
  | 0, _ => []
  | n + 1, x => x.getLsbD 15 :: topBits n (x <<< 1)

theorem bitSteps_xor_eq_foldl (n : Nat) (r x : Half) :
    bitSteps n (r ^^^ x) = (topBits n x).foldl serialStep r ^^^ (x <<< n) := by
  induction n generalizing r x with
  | zero => simp [bitSteps, topBits]
  | succ n ih =>
    rw [bitSteps, bitStep_xor_eq_serialStep, ih, topBits, List.foldl_cons, ← BitVec.shiftLeft_add, Nat.add_comm 1 n]

theorem topBits_eight (x : Half) : topBits 8 x = bitsMsbFirst (highByte x) := by
  simp [topBits, bitsMsbFirst, highByte]

/-- Eight bit steps feed the high octet in and shift it out. -/
theorem bitSteps_eight_xor (r x : Half) :
    bitSteps 8 (r ^^^ x) = byteStepSerial r (highByte x) ^^^ (x <<< 8) := by
  rw [bitSteps_xor_eq_foldl, topBits_eight, byteStepSerial]

/-! The octets of the register. -/

@[simp] theorem highByte_highOctet (d : Byte) : highByte (highOctet d) = d := by
  apply BitVec.eq_of_getLsbD_eq
  intro i hi
  have h16 : 8 + i < 16 := by omega
  simp [highByte, highOctet, hi, h16]

@[simp] theorem highOctet_shiftLeft (d : Byte) : highOctet d <<< 8 = 0x0000#16 := by
  rw [highOctet, ← BitVec.shiftLeft_add, BitVec.shiftLeft_eq_zero (by decide)]

theorem highByte_xor (r q : Half) : highByte (r ^^^ q) = highByte r ^^^ highByte q :=
  BitVec.extractLsb'_xor

theorem highOctet_xor (d e : Byte) : highOctet (d ^^^ e) = highOctet d ^^^ highOctet e := by
  rw [highOctet, BitVec.setWidth_xor, BitVec.shiftLeft_xor_distrib, highOctet, highOctet]

theorem highByte_shiftLeft (r : Half) : highByte (r <<< 8) = lowByte r := by
  apply BitVec.eq_of_getLsbD_eq
  intro i hi
  have h16 : i < 16 := by omega
  have h16' : 8 + i < 16 := by omega
  simp [highByte, lowByte, hi, h16', BitVec.getLsbD_eq_getElem h16]

/-! One byte step. -/

theorem byteStep_eq_serial (r : Half) (d : Byte) : byteStep r d = byteStepSerial r d := by
  rw [byteStep, bitSteps_eight_xor, highByte_highOctet, highOctet_shiftLeft, BitVec.xor_zero]

/-- The feedback of a byte step depends on `crc[15:8] XOR d` alone (40_crc_engine.md R59). -/
theorem byteStep_eq_shift_xor (r : Half) (d : Byte) :
    byteStep r d = (r <<< 8) ^^^ byteStep 0x0000#16 (highByte r ^^^ d) :=
  calc bitSteps 8 (r ^^^ highOctet d)
    _ = bitSteps 8 (0x0000#16 ^^^ (r ^^^ highOctet d)) := by rw [BitVec.zero_xor]
    _ = byteStepSerial 0x0000#16 (highByte r ^^^ d) ^^^ (r <<< 8) := by
      rw [bitSteps_eight_xor, highByte_xor, highByte_highOctet, BitVec.shiftLeft_xor_distrib, highOctet_shiftLeft,
        BitVec.xor_zero]
    _ = (r <<< 8) ^^^ byteStep 0x0000#16 (highByte r ^^^ d) := by rw [byteStep_eq_serial, BitVec.xor_comm]

theorem byteStep_zero_zero : byteStep 0x0000#16 0x00#8 = 0x0000#16 := by decide

/-- A byte equal to `crc[15:8]` cancels the feedback (40_crc_engine.md section 2, BYTE). -/
theorem byteStep_highByte (r : Half) : byteStep r (highByte r) = r <<< 8 := by
  rw [byteStep_eq_shift_xor, BitVec.xor_self, byteStep_zero_zero, BitVec.xor_zero]

theorem byteStep_xor (r q : Half) (d e : Byte) :
    byteStep (r ^^^ q) (d ^^^ e) = byteStep r d ^^^ byteStep q e := by
  have hxor : r ^^^ q ^^^ highOctet (d ^^^ e) = (r ^^^ highOctet d) ^^^ (q ^^^ highOctet e) := by
    rw [highOctet_xor]
    ac_rfl
  rw [byteStep, hxor, bitSteps_xor, byteStep, byteStep]

theorem byteStep_injective (d : Byte) : Function.Injective (fun r : Half => byteStep r d) := fun _ _ h =>
  (BitVec.xor_left_inj (highOctet d)).mp (bitSteps_injective 8 h)

/-- The 256 entries that 95_test_vectors.md V-L2 lists, each computed. -/
theorem tableEntry_eq_byteStep : ∀ i : Byte, tableEntry i = byteStep 0x0000#16 i := by
  decide +kernel

/-! Byte sequences. -/

theorem crcFrom_xor {a e : List Byte} (h : a.length = e.length) (r q : Half) :
    crcFrom (r ^^^ q) (List.zipWith (fun x y => x ^^^ y) a e) = crcFrom r a ^^^ crcFrom q e := by
  induction a generalizing e r q with
  | nil =>
    obtain rfl : e = [] := List.length_eq_zero_iff.mp h.symm
    rfl
  | cons d a ih =>
    cases e with
    | nil => cases h
    | cons c e =>
      rw [List.zipWith_cons_cons, crcFrom_cons, byteStep_xor, ih (Nat.succ.inj h), crcFrom_cons, crcFrom_cons]

theorem computeChecksum_append (a b : List Byte) : computeChecksum (a ++ b) = crcFrom (computeChecksum a) b :=
  crcFrom_append _ _ _

/-- The high byte shifts the low byte up, and the low byte shifts it out. -/
theorem crcFrom_highByte_lowByte (c : Half) : crcFrom c [highByte c, lowByte c] = 0x0000#16 := by
  rw [crcFrom_cons, byteStep_highByte, crcFrom_cons, ← highByte_shiftLeft, byteStep_highByte, crcFrom_nil,
    ← BitVec.shiftLeft_add, BitVec.shiftLeft_eq_zero (by decide)]

theorem computeChecksumOf_of_le {b : List Byte} {n : Nat} (h : n ≤ b.length) :
    computeChecksumOf b n = .ok (computeChecksum (b.take n)) :=
  if_pos h

theorem computeChecksumOf_of_lt {b : List Byte} {n : Nat} (h : b.length < n) :
    computeChecksumOf b n = .error .lengthBeyondBuffer :=
  if_neg (Nat.not_le.mpr h)

/-! The statements. -/

/-- Settles O30: bit 15 is clear exactly below 2^15, and R47's examples are computed. -/
theorem bitStepArithmetic : Obligations.BitStepArithmetic :=
  ⟨fun _ => toNat_bitStep_of_lt, fun _ => bitStep_of_le, by decide, by decide, by decide⟩

/-- Settles O33: the byte in the high octet is fed in by its bits, bit 7 first, and shifted out. -/
theorem serialFormAgrees : Obligations.SerialFormAgrees :=
  byteStep_eq_serial

/-- Settles O34: the feedback is that of the byte `crc[15:8] XOR d` on a zero register, which the table lists. -/
theorem tableFormAgrees : Obligations.TableFormAgrees := by
  refine ⟨tableEntry_eq_byteStep, fun r d => ?_⟩
  rw [byteStepTable, tableEntry_eq_byteStep, byteStep_eq_shift_xor]

/-- Settles O35: from the shift and the feedback up to byte sequences, where 0xFFFF is 0xFFFF XOR 0x0000. -/
theorem engineIsLinear : Obligations.EngineIsLinear :=
  ⟨bitStep_xor, byteStep_xor, fun _ _ h => crcFrom_xor h Config.initValue 0x0000#16⟩

/-- Settles O36: a bit step loses nothing, so the byte step is injective, and the register has finitely many values. -/
theorem byteStepIsBijective : Obligations.ByteStepIsBijective := by
  intro d
  have hfin : Finite Half := Finite.of_injective _ BitVec.toFin_injective
  exact Finite.injective_iff_bijective.mp (byteStep_injective d)

/-- Settles O37: each of the two bytes equals the high octet it meets. -/
theorem residueIsZero : Obligations.ResidueIsZero := fun m => by
  rw [computeChecksum_append, crcFrom_highByte_lowByte]

/-- Settles O31: the loop takes one more byte at its end; the buffer's length decides the two-argument form. -/
theorem checksumDefinition : Obligations.ChecksumDefinition :=
  ⟨rfl, fun b d => computeChecksum_append b [d], fun _ _ => computeChecksumOf_of_le,
    fun _ _ => computeChecksumOf_of_lt, by decide +kernel⟩

/-- Settles O32: the loop runs no times. -/
theorem zeroLengthChecksum : Obligations.ZeroLengthChecksum :=
  ⟨rfl, fun b => computeChecksumOf_of_le (Nat.zero_le b.length)⟩

end Sys2Proof.Machine
end

section
/-! The commands NOP and INIT (40_crc_engine.md R53, R54), and the run of INIT and bytes with NOPs anywhere (R56): a run
keeps its answer, apart from `cix`, when NOPs are put in, and without them it is the loop of `ComputeChecksum`. -/

namespace Sys2Proof.Machine

/-! NOP and INIT. -/

/-- NOP's word is the only one with its opcode (40_crc_engine.md R53). -/
theorem decode_error_of_nopOpcode {w : Word} (hop : opField w = 0x00#8) (hw : w ≠ encode .nop) :
    ∃ r, decode w = .error r := by
  refine decode_error_iff.mpr (forall_ne_encode_iff.mpr ⟨hw, ?_, fun d => ?_, fun v => ?_⟩)
  · simp [eq_encode_init_iff, hop]
  · simp [eq_encode_byte_iff, hop]
  · simp [eq_encode_check_iff, hop]

/-- Settles O6: the word is the encoder's, and no other command has its opcode. -/
theorem nopResult : Obligations.NopResult :=
  ⟨fun _ => rfl, rfl, fun _ hop hw => decode_error_of_nopOpcode hop hw⟩

/-- Settles O7: INIT writes constants, so a second one writes them again. -/
theorem initResult : Obligations.InitResult := by
  refine ⟨fun _ => rfl, rfl, fun s t h => ?_⟩
  cases h
  rfl

/-! Runs of commands. -/

theorem runWords_wordsOf_cons (i : Instr) (l : List Instr) (s : State) :
    runWords (wordsOf (i :: l)) s = andThen (exec i s) (runWords (wordsOf l)) := by
  rw [← consume_legal (decode_encode i)]
  rfl

/-- No command reads `cix` (10_state.md R20). -/
theorem exec_withCix {i : Instr} {s t : State} (h : exec i s = .next t) (n : Nat) :
    exec i { s with cix := n } = .next { t with cix := n + 1 } := by
  cases i <;> cases h <;> rfl

/-- NOPs put into a run, anywhere, only count. -/
theorem runWords_of_filter_nop {l : List Instr} {s t : State}
    (h : runWords (wordsOf (l.filter (fun i => i ≠ .nop))) s = .next t) (n : Nat) :
    runWords (wordsOf l) { s with cix := n } = .next { t with cix := n + l.length } := by
  induction l generalizing s n with
  | nil => cases h; rfl
  | cons i l ih =>
    rw [runWords_wordsOf_cons, List.length_cons, Nat.add_comm l.length, ← Nat.add_assoc]
    by_cases hi : i = .nop
    · subst hi
      exact ih h (n + 1)
    · obtain ⟨u, hu⟩ := exec_answers i s
      rw [List.filter_cons_of_pos (by simpa using hi), runWords_wordsOf_cons, hu] at h
      rw [exec_withCix hu]
      exact ih h (n + 1)

/-- The bytes of a run on a block without a verdict go through the loop of R49 one by one. -/
theorem runWords_bytes (b : List Byte) {s : State} (hvld : s.vld = false) (hcor : s.corrupted = false) :
    runWords (wordsOf (b.map .byte)) s = .next { s with crc := crcFrom s.crc b, cix := s.cix + b.length } := by
  induction b generalizing s with
  | nil => rfl
  | cons d b ih =>
    rw [List.map_cons, runWords_wordsOf_cons, exec_byte, andThen_next, ih rfl rfl, List.length_cons,
      Nat.add_comm b.length, ← Nat.add_assoc]
    cases s
    cases hvld
    cases hcor
    rfl

/-- The run of the CRC pseudo-command (30_encoding.md R46) from any state. -/
theorem runWords_crcCommands (b : List Byte) (s : State) :
    runWords (wordsOf (crcCommands b)) s = .next
      { s with crc := computeChecksum b, vld := false, corrupted := false, cix := s.cix + 1 + b.length } := by
  rw [crcCommands, runWords_wordsOf_cons, exec_init, andThen_next, runWords_bytes b rfl rfl]
  rfl

theorem filter_nop_crcCommands (b : List Byte) : (crcCommands b).filter (fun i => i ≠ .nop) = crcCommands b := by
  rw [List.filter_eq_self]
  simp [crcCommands]

/-- STATUS[15:0] is the register (10_state.md R21). -/
theorem status_crc (s : State) : (status s).extractLsb' 0 16 = s.crc :=
  BitVec.extractLsb'_append_eq_right

/-- Settles O38: the run of the CRC pseudo-command, with the NOPs put back in. -/
theorem checksumRun : Obligations.ChecksumRun := by
  refine ⟨fun s l b hl => ?_, filter_nop_crcCommands⟩
  have hrun := runWords_of_filter_nop (hl ▸ runWords_crcCommands b s) s.cix
  exact ⟨_, hrun, rfl, rfl, rfl, status_crc _⟩

end Sys2Proof.Machine
end

section
/-! CHECK (41_detector.md R63), the packet-level contract (R64, R66), and the VERIFY run with its verdict (R65, R67). -/

namespace Sys2Proof.Machine

/-! CHECK. -/

/-- A word with CHECK's opcode and a reserved bit set is illegal (30_encoding.md R44). -/
theorem decode_error_of_checkOpcode_reserved {w : Word} (hop : opField w = 0x03#8) (hrsv : rsvField w ≠ 0x00#8) :
    ∃ r, decode w = .error r :=
  (illegal_iff w).mpr (.inr (.inl ⟨BitVec.le_of_eq hop, hrsv⟩))

/-- Settles O9: CHECK's own rule computed; its words by mask and fields; INIT writes 0xFFFF and CHECK leaves `crc`. -/
theorem checkResult : Obligations.CheckResult := by
  refine ⟨fun _ _ => rfl, fun _ => decode_error_of_checkOpcode_reserved,
    fun _ hw => decode_eq_ok_iff.mpr (checkMask_iff.mp hw), fun v s t hinit => ?afterInit, fun v u s t hcheck => ?again⟩
  case afterInit =>
    cases hinit
    rfl
  case again =>
    cases hcheck
    rfl

/-! Which packets are answered. -/

theorem packet_wellFormed_iff (p : Packet) : p.wellFormed = true ↔ p.length.toNat ≤ 50 :=
  decide_eq_true_iff

theorem assemble_verify_wellFormed {p : Packet} (h : p.wellFormed = true) :
    assemble (.verify p) = .ok (wordsOf (verifyCommands p)) :=
  if_pos h

theorem assemble_verify_illFormed {p : Packet} (h : p.wellFormed = false) :
    assemble (.verify p) = .error .illFormedPacket :=
  if_neg (Bool.not_eq_true _ ▸ h)

/-- Settles O48: the predicate and VERIFY both ask for a well-formed packet and for nothing else. -/
theorem illFormedPacketRefused : Obligations.IllFormedPacketRefused := by
  refine fun p => ⟨packet_wellFormed_iff p, fun h => ?illFormed, fun h => ?wellFormed⟩
  case illFormed =>
    have hp : p.wellFormed = false := by simpa [← packet_wellFormed_iff] using Nat.not_le.mpr h
    exact ⟨isCorrupted_illFormed hp, assemble_verify_illFormed hp⟩
  case wellFormed =>
    have hp : p.wellFormed = true := (packet_wellFormed_iff p).mpr h
    exact ⟨⟨_, isCorrupted_wellFormed hp⟩, assemble_verify_wellFormed hp⟩

/-! The VERIFY run. -/

/-- The run of the VERIFY pseudo-command (30_encoding.md R46): the CRC run, and CHECK's verdict on what it leaves. -/
theorem runWords_verifyCommands (p : Packet) (s : State) :
    runWords (wordsOf (verifyCommands p)) s = .next
      { s with
        crc := computeChecksum (packetBytes p)
        vld := true
        corrupted := verdictOf (computeChecksum (packetBytes p)) p.storedChecksum
        stored := p.storedChecksum
        cix := s.cix + 1 + (packetBytes p).length + 1 } := by
  rw [verifyCommands, wordsOf, List.map_append, runWords_append, ← wordsOf, runWords_crcCommands, andThen_next,
    ← wordsOf, runWords_wordsOf_cons]
  rfl

theorem status_vld (s : State) : (status s).getLsbD 16 = s.vld := by
  simp only [status, BitVec.getLsbD_append]
  simp

theorem status_corrupted (s : State) : (status s).getLsbD 17 = s.corrupted := by
  simp only [status, BitVec.getLsbD_append]
  simp

/-- A standing verdict of a block that was reset can be read (70_reset_and_hazards.md R87). -/
theorem readVerdict_of_vld {s : State} (hreset : s.wasReset = true) (hvld : s.vld = true) :
    readVerdict s = .next s.corrupted := by
  rw [readVerdict, if_pos hreset, status_vld, if_pos hvld, status_corrupted]

/-- Settles O39: the run of the VERIFY pseudo-command, with the NOPs put back in. -/
theorem verifyRun : Obligations.VerifyRun := by
  intro s p l hp hl
  have hrun := runWords_of_filter_nop (hl ▸ runWords_verifyCommands p s) s.cix
  have hlen : (wordsOf l).length = l.length := List.length_map _
  exact ⟨_, hrun, rfl, rfl, isCorrupted_wellFormed hp, rfl, congrArg (s.cix + ·) hlen.symm, rfl,
    fun hreset => readVerdict_of_vld hreset rfl⟩

/-! No false alarm. -/

theorem verdictOf_eq_false_iff {c v : Half} : verdictOf c v = false ↔ c = v := by
  simp [verdictOf]

/-- Settles O50: equal checksums are the comparator's 0, for the predicate and for the run; scenario A's checksum is
R49's example. -/
theorem noFalseAlarm : Obligations.NoFalseAlarm := by
  have hsound : ∀ {p : Packet}, p.storedChecksum = computeChecksum (packetBytes p) →
      verdictOf (computeChecksum (packetBytes p)) p.storedChecksum = false :=
    fun hstored => verdictOf_eq_false_iff.mpr hstored.symm
  refine ⟨fun p hp hstored => ⟨?predicate, fun s => ⟨_, runWords_verifyCommands p s, hsound hstored⟩⟩,
    fun p hbytes hstored hp => ?scenarioA⟩
  case predicate => rw [isCorrupted_wellFormed hp, hsound hstored]
  case scenarioA =>
    obtain ⟨-, -, -, -, hsum⟩ := checksumDefinition
    rw [isCorrupted_wellFormed hp, hsound (by rw [hstored, hbytes, hsum])]

end Sys2Proof.Machine
end

section
/-! `Crc0` of a byte sequence, bit by bit (40_crc_engine.md R58, R60): the register along the stream of its bits, which
moves by plain bit steps wherever the stream is 0. -/

namespace Sys2Proof.Machine

/-! Bit steps: without input they never turn a register into zero, or zero into another value. -/

theorem bitSteps_zero_register (n : Nat) : bitSteps n 0x0000#16 = 0x0000#16 := by
  induction n with
  | zero => rfl
  | succ n ih => exact ih

theorem bitSteps_eq_zero_iff {n : Nat} {r : Half} : bitSteps n r = 0x0000#16 ↔ r = 0x0000#16 :=
  (bitSteps_injective n).eq_iff' (bitSteps_zero_register n)

theorem bitSteps_eq_iterate (n : Nat) : bitSteps n = bitStep^[n] := by
  induction n with
  | zero => rfl
  | succ n ih => rw [Function.iterate_succ, ← ih]; rfl

theorem bitSteps_bitStep (n : Nat) (r : Half) : bitSteps n (bitStep r) = bitStep (bitSteps n r) := by
  rw [bitSteps_eq_iterate, ← Function.iterate_succ_apply, Function.iterate_succ_apply']

theorem bitSteps_add (m n : Nat) (r : Half) : bitSteps (m + n) r = bitSteps m (bitSteps n r) := by
  simp only [bitSteps_eq_iterate, Function.iterate_add_apply]

theorem serialStep_eq_bitStep_xor (r : Half) (b : Bool) : serialStep r b = bitStep r ^^^ feedback b := by
  rw [serialStep_eq, feedback_xor, ← BitVec.xor_assoc, bitStep_eq]

/-- Sixteen bit steps of a value take its own bits into a zero register. -/
theorem bitSteps_sixteen_eq_foldl (x : Half) : bitSteps 16 x = (topBits 16 x).foldl serialStep 0x0000#16 := by
  have h := bitSteps_xor_eq_foldl 16 0x0000#16 x
  rwa [BitVec.zero_xor, BitVec.shiftLeft_eq_zero le_rfl, BitVec.xor_zero] at h

/-! The register along a stream of bits. -/

/-- The register after the first `n` bits of the stream `f`, from 0x0000. -/
def registerAfter (f : Nat → Bool) : Nat → Half
  | 0 => 0x0000#16
  | n + 1 => serialStep (registerAfter f n) (f n)

/-- Stretches of 0 bits are plain bit steps. -/
theorem registerAfter_add_of_quiet {f : Nat → Bool} (m n : Nat) (hf : ∀ k, n ≤ k → k < n + m → f k = false) :
    registerAfter f (n + m) = bitSteps m (registerAfter f n) := by
  induction m generalizing n with
  | zero => rfl
  | succ m ih =>
    rw [Nat.add_comm m, ← Nat.add_assoc, ih (n + 1) fun k hn hk => hf k (by omega) (by omega), registerAfter,
      hf n le_rfl (by omega), serialStep_eq_bitStep_xor, feedback_false, BitVec.xor_zero, Nat.add_comm 1 m, bitSteps]

theorem registerAfter_eq_zero_of_quiet {f : Nat → Bool} {n : Nat} (hf : ∀ k < n, f k = false) :
    registerAfter f n = 0x0000#16 := by
  rw [← Nat.zero_add n, registerAfter_add_of_quiet n 0 fun k _ hk => hf k (by omega)]
  exact bitSteps_zero_register n

/-- Two streams that agree so far leave the same register. -/
theorem registerAfter_congr {f g : Nat → Bool} {n : Nat} (h : ∀ k < n, f k = g k) :
    registerAfter f n = registerAfter g n := by
  induction n with
  | zero => rfl
  | succ n ih => rw [registerAfter, registerAfter, ih fun k hk => h k (by omega), h n (by omega)]

theorem registerAfter_add_eq_foldl (f : Nat → Bool) (n m : Nat) :
    registerAfter f (n + m) = ((List.range m).map fun i => f (n + i)).foldl serialStep (registerAfter f n) := by
  induction m with
  | zero => rfl
  | succ m ih => simp [registerAfter, ih, List.range_succ]

/-! The bits of a byte sequence. -/

theorem streamBit_append_left {a b : List Byte} {k : Nat} (hk : k < 8 * a.length) :
    streamBit (a ++ b) k = streamBit a k := by
  rw [streamBit, streamBit, List.getD_append _ _ _ _ (by omega)]

theorem streamBit_append_singleton (a : List Byte) (d : Byte) {i : Nat} (hi : i < 8) :
    streamBit (a ++ [d]) (8 * a.length + i) = d.getLsbD (7 - i) := by
  have hdiv : (8 * a.length + i) / 8 = a.length := by omega
  have hmod : (8 * a.length + i) % 8 = i := by omega
  simp [streamBit, hdiv, hmod]

/-- `Crc0` of a sequence is the register after all its bits, bit 7 of each byte first. -/
theorem crc0_eq_registerAfter (e : List Byte) : crc0 e = registerAfter (streamBit e) (8 * e.length) := by
  induction e using List.reverseRecOn with
  | nil => rfl
  | append_singleton a d ih =>
    have hbits : ((List.range 8).map fun i => streamBit (a ++ [d]) (8 * a.length + i)) = bitsMsbFirst d := by
      rw [List.map_congr_left fun i hi => streamBit_append_singleton a d (List.mem_range.mp hi)]
      rfl
    rw [crc0, crcFrom_append, ← crc0, ih, crcFrom_cons, crcFrom_nil, byteStep_eq_serial, byteStepSerial,
      List.length_append, List.length_singleton, Nat.mul_add, registerAfter_add_eq_foldl, hbits,
      registerAfter_congr fun k => streamBit_append_left]

/-- A register that is not zero anywhere past the last 1 bit tells that `Crc0` is not zero. -/
theorem crc0_ne_zero_of_registerAfter {e : List Byte} {n : Nat} (hquiet : ∀ k, n ≤ k → streamBit e k = false)
    (hreg : registerAfter (streamBit e) n ≠ 0x0000#16) : crc0 e ≠ 0x0000#16 := by
  obtain hle | hle := Nat.le_total n (8 * e.length)
  · obtain ⟨m, hm⟩ := Nat.exists_eq_add_of_le hle
    rw [crc0_eq_registerAfter, hm, registerAfter_add_of_quiet m n fun k hk _ => hquiet k hk]
    exact mt bitSteps_eq_zero_iff.mp hreg
  · obtain ⟨m, rfl⟩ := Nat.exists_eq_add_of_le hle
    rw [registerAfter_add_of_quiet m _ fun k hk _ => streamBit_beyond hk, ← crc0_eq_registerAfter] at hreg
    exact mt bitSteps_eq_zero_iff.mpr hreg

end Sys2Proof.Machine
end

section
/-! The order of x modulo the generator is 32767 (41_detector.md R68; 95_test_vectors.md V-L5). A bit step multiplies by x,
so a power of x is the register 0x0001 some bit steps on, and 32767 = 7 * 31 * 151 is reached by multiplying powers. -/

namespace Sys2Proof.Machine

/-- `x^n` modulo the generator. -/
def xPow (n : Nat) : Half := bitSteps n 0x0001#16

/-- The product of two register values modulo the generator: `a` is taken in from its top bit on, as the register takes in
a stream (40_crc_engine.md R58), with `b` fed back in the place of the polynomial. -/
def mulReg (b a : Half) : Half := (topBits 16 a).foldl (fun r c => bitStep r ^^^ bif c then b else 0x0000#16) 0x0000#16

theorem xPow_sixteen : xPow 16 = Config.poly := by decide +kernel

theorem bitSteps_feedback (n : Nat) (c : Bool) :
    bitSteps n (feedback c) = bif c then xPow (n + 16) else 0x0000#16 := by
  cases c with
  | false => exact bitSteps_zero_register n
  | true => rw [xPow, bitSteps_add, ← xPow, xPow_sixteen]; rfl

/-- Sixteen bit steps or more multiply by their power of x. -/
theorem bitSteps_add_sixteen (n : Nat) (x : Half) : bitSteps (n + 16) x = mulReg (xPow (n + 16)) x :=
  calc bitSteps (n + 16) x
    _ = bitSteps n ((topBits 16 x).foldl serialStep 0x0000#16) := by
      rw [bitSteps_add, bitSteps_sixteen_eq_foldl]
    _ = (topBits 16 x).foldl (fun r c => bitStep r ^^^ bif c then xPow (n + 16) else 0x0000#16)
          (bitSteps n 0x0000#16) := by
      refine (List.foldl_hom (bitSteps n) fun r c => ?_).symm
      rw [serialStep_eq_bitStep_xor, bitSteps_xor, bitSteps_bitStep, bitSteps_feedback]
    _ = mulReg (xPow (n + 16)) x := by rw [bitSteps_zero_register, mulReg]

theorem xPow_mul (n k : Nat) : xPow ((n + 16) * k) = (mulReg (xPow (n + 16)))^[k] 0x0001#16 := by
  induction k with
  | zero => rfl
  | succ k ih =>
    rw [Function.iterate_succ_apply', ← ih, ← bitSteps_add_sixteen, xPow, xPow, ← bitSteps_add, Nat.mul_succ,
      Nat.add_comm (n + 16)]

theorem xPow_151 : xPow 151 = 0xF008#16 := by decide +kernel

theorem xPow_217_ne_one : xPow 217 ≠ 0x0001#16 := by decide +kernel

theorem xPow_1057_ne_one : xPow 1057 ≠ 0x0001#16 := by
  rw [show 1057 = (135 + 16) * 7 from rfl, xPow_mul, xPow_151]
  decide +kernel

theorem xPow_4681 : xPow 4681 = 0x2C42#16 := by
  rw [show 4681 = (135 + 16) * 31 from rfl, xPow_mul, xPow_151]
  decide +kernel

theorem xPow_4681_ne_one : xPow 4681 ≠ 0x0001#16 := by
  rw [xPow_4681]
  decide

theorem xPow_32767 : xPow 32767 = 0x0001#16 := by
  rw [show 32767 = (4665 + 16) * 7 from rfl, xPow_mul, xPow_4681]
  decide +kernel

/-- 32767 is 7 * 31 * 151, and a proper divisor lacks one of these primes. -/
theorem dvd_of_dvd_32767_of_lt {m : Nat} (hm : m ∣ 32767) (hlt : m < 32767) : m ∣ 4681 ∨ m ∣ 1057 ∨ m ∣ 217 := by
  obtain ⟨q, hq⟩ := hm
  obtain ⟨p, hp, r, rfl⟩ := Nat.exists_prime_and_dvd (n := q) (by rintro rfl; omega)
  rw [Nat.mul_left_comm] at hq
  have hdvd : p ∣ 7 * 31 * 151 := ⟨m * r, hq⟩
  have h7 : Nat.Prime 7 := by norm_num
  have h31 : Nat.Prime 31 := by norm_num
  have h151 : Nat.Prime 151 := by norm_num
  rw [hp.dvd_mul, hp.dvd_mul, Nat.prime_dvd_prime_iff_eq hp h7, Nat.prime_dvd_prime_iff_eq hp h31,
    Nat.prime_dvd_prime_iff_eq hp h151] at hdvd
  obtain (rfl | rfl) | rfl := hdvd
  · exact .inl ⟨r, by omega⟩
  · exact .inr (.inl ⟨r, by omega⟩)
  · exact .inr (.inr ⟨r, by omega⟩)

theorem isPeriodicPt_bitStep_iff {n : Nat} : Function.IsPeriodicPt bitStep n 0x0001#16 ↔ xPow n = 0x0001#16 := by
  rw [xPow, bitSteps_eq_iterate]
  rfl

/-- The order of x modulo the generator is not below 32767 (95_test_vectors.md V-L5). -/
theorem xPow_ne_one {d : Nat} (hpos : 0 < d) (hlt : d < 32767) : xPow d ≠ 0x0001#16 := by
  intro hd
  have hgcd := (isPeriodicPt_bitStep_iff.mpr hd).gcd (isPeriodicPt_bitStep_iff.mpr xPow_32767)
  have hlt' : d.gcd 32767 < 32767 := (Nat.gcd_le_left _ hpos).trans_lt hlt
  obtain h | h | h := dvd_of_dvd_32767_of_lt (Nat.gcd_dvd_right d 32767) hlt'
  · exact xPow_4681_ne_one (isPeriodicPt_bitStep_iff.mp (hgcd.trans_dvd h))
  · exact xPow_1057_ne_one (isPeriodicPt_bitStep_iff.mp (hgcd.trans_dvd h))
  · exact xPow_217_ne_one (isPeriodicPt_bitStep_iff.mp (hgcd.trans_dvd h))

theorem bitSteps_poly_ne {d : Nat} (hpos : 0 < d) (hlt : d < 32767) : bitSteps d Config.poly ≠ Config.poly := by
  rw [← xPow_sixteen, xPow, ← bitSteps_add, Nat.add_comm, bitSteps_add]
  exact (bitSteps_injective 16).ne (xPow_ne_one hpos hlt)

end Sys2Proof.Machine
end

section
/-! The error patterns of 41_detector.md R68: none of the four kinds leaves the register at zero, and so each is detected. -/

namespace Sys2Proof.Machine

/-! An odd number of 1 bits: x + 1 divides the generator, so the register's parity is that of the bits taken in. -/

/-- The XOR of the lowest `n` bits of a register. -/
def lowParity : Nat → Half → Bool
  | 0, _ => false
  | n + 1, r => lowParity n r ^^ r.getLsbD n

/-- The XOR of all bits of a register. -/
def parity (r : Half) : Bool := lowParity 16 r

theorem lowParity_xor (n : Nat) (a b : Half) : lowParity n (a ^^^ b) = (lowParity n a ^^ lowParity n b) := by
  induction n with
  | zero => rfl
  | succ n ih => simp only [lowParity, ih, BitVec.getLsbD_xor, Bool.xor_assoc, Bool.xor_left_comm]

/-- Shifting moves the lower bits up and brings a 0 in. -/
theorem lowParity_shiftLeft {n : Nat} (hn : n < 16) (r : Half) : lowParity (n + 1) (r <<< 1) = lowParity n r := by
  induction n with
  | zero => simp [lowParity]
  | succ n ih =>
    rw [lowParity, ih (by omega), lowParity]
    simp [hn, BitVec.getLsbD_eq_getElem (Nat.lt_of_succ_lt hn)]

theorem parity_xor (a b : Half) : parity (a ^^^ b) = (parity a ^^ parity b) :=
  lowParity_xor 16 a b

/-- Shifting loses bit 15 alone. -/
theorem parity_shiftLeft (r : Half) : parity (r <<< 1) = (parity r ^^ r.getLsbD 15) := by
  have hlast : parity r = (lowParity 15 r ^^ r.getLsbD 15) := rfl
  rw [hlast, parity, lowParity_shiftLeft (by decide), Bool.xor_assoc, Bool.xor_self, Bool.xor_false]

theorem parity_zero : parity 0x0000#16 = false := by decide

theorem parity_feedback (b : Bool) : parity (feedback b) = b := by
  cases b <;> decide

theorem parity_serialStep (r : Half) (b : Bool) : parity (serialStep r b) = (parity r ^^ b) := by
  rw [serialStep_eq, parity_xor, parity_feedback, parity_shiftLeft]
  simp

theorem parity_registerAfter (f : Nat → Bool) (n : Nat) :
    parity (registerAfter f n) = decide (((List.range n).filter f).length % 2 = 1) := by
  induction n with
  | zero => simp [registerAfter, parity_zero]
  | succ n ih =>
    rw [registerAfter, parity_serialStep, ih, List.range_succ, List.filter_append, List.length_append]
    generalize ((List.range n).filter f).length = w
    cases hf : f n with
    | false => simp [hf]
    | true => obtain hw | hw := Nat.mod_two_eq_zero_or_one w <;> simp [hf, hw, Nat.add_mod]

theorem crc0_ne_zero_of_odd_weight {e : List Byte} (h : streamWeight e % 2 = 1) : crc0 e ≠ 0x0000#16 := by
  intro hzero
  have hpar := parity_registerAfter (streamBit e) (8 * e.length)
  rw [← crc0_eq_registerAfter, hzero, ← streamWeight, decide_eq_true h, parity_zero] at hpar
  cases hpar

/-! A burst within 16 bits: the register has room for all of it, so no two bursts leave the same value. -/

/-- Sixteen bits of a stream as a register value, the first of them in bit 15. -/
def burstAt (f : Nat → Bool) (k : Nat) : Half := BitVec.ofFnLE fun i : Fin 16 => f (k + (15 - i))

theorem getLsbD_burstAt (f : Nat → Bool) (k : Nat) {i : Nat} (hi : i < 16) :
    (burstAt f k).getLsbD (15 - i) = f (k + i) := by
  have hlt : 15 - i < 16 := by omega
  have hsub : 15 - (15 - i) = i := by omega
  simp [burstAt, hlt, hsub]

theorem topBits_burstAt (f : Nat → Bool) (k : Nat) :
    topBits 16 (burstAt f k) = (List.range 16).map fun i => f (k + i) := by
  rw [← List.map_congr_left fun i hi => getLsbD_burstAt f k (List.mem_range.mp hi)]
  simp [topBits, List.range_succ]

/-- Sixteen bits taken into a zero register are their value, bit step by bit step. -/
theorem registerAfter_burst {f : Nat → Bool} {k : Nat} (hf : ∀ i < k, f i = false) :
    registerAfter f (k + 16) = bitSteps 16 (burstAt f k) := by
  rw [bitSteps_sixteen_eq_foldl, topBits_burstAt, registerAfter_add_eq_foldl, registerAfter_eq_zero_of_quiet hf]

theorem crc0_ne_zero_of_burst {e : List Byte} {i k : Nat} (hi : streamBit e i = true)
    (hk : ∀ j, streamBit e j = true → k ≤ j ∧ j < k + 16) : crc0 e ≠ 0x0000#16 := by
  have hout : ∀ j, ¬ (k ≤ j ∧ j < k + 16) → streamBit e j = false := fun j hj => by simpa using mt (hk j) hj
  refine crc0_ne_zero_of_registerAfter (n := k + 16) (fun j hj => hout j (by omega)) ?_
  rw [registerAfter_burst fun j hj => hout j (by omega), ne_eq, bitSteps_eq_zero_iff]
  intro hzero
  obtain ⟨hki, hik⟩ := hk i hi
  have hbit := getLsbD_burstAt (streamBit e) k (i := i - k) (by omega)
  rw [hzero, Nat.add_sub_cancel' hki, hi, BitVec.getLsbD_zero] at hbit
  cases hbit

/-! Two 1 bits: the register comes back to the first bit's value after the order of x, and never before. -/

/-- The second bit meets what the bit steps since have made of the first. -/
theorem registerAfter_two_bits {f : Nat → Bool} {i j : Nat} (hij : i < j) (hf : ∀ k, f k = true ↔ k = i ∨ k = j) :
    registerAfter f (j + 1) = bitSteps (j - i) Config.poly ^^^ Config.poly := by
  have hquiet : ∀ k, k ≠ i → k ≠ j → f k = false := fun k hi hj => by simpa [hi, hj] using hf k
  have hfirst : registerAfter f (i + 1) = Config.poly := by
    rw [registerAfter, registerAfter_eq_zero_of_quiet fun k hk => hquiet k (by omega) (by omega), (hf i).mpr (.inl rfl)]
    decide
  obtain ⟨d, rfl⟩ := Nat.exists_eq_add_of_lt hij
  have hbetween : registerAfter f (i + d + 1) = bitSteps d Config.poly := by
    rw [Nat.add_right_comm, registerAfter_add_of_quiet d (i + 1) fun k hk hk' => hquiet k (by omega) (by omega), hfirst]
  rw [registerAfter, hbetween, (hf _).mpr (.inr rfl), serialStep_eq_bitStep_xor, feedback_true, ← bitSteps_bitStep,
    Nat.add_assoc, Nat.add_sub_cancel_left, bitSteps]

theorem crc0_ne_zero_of_two_bits {e : List Byte} {i j : Nat} (hij : i < j) (hlt : j - i < 32767)
    (he : ∀ k, streamBit e k = true ↔ k = i ∨ k = j) : crc0 e ≠ 0x0000#16 := by
  refine crc0_ne_zero_of_registerAfter (n := j + 1) (fun k hk => ?quiet) ?register
  case quiet =>
    have hne : ¬ (k = i ∨ k = j) := by omega
    simpa [hne] using he k
  case register =>
    rw [registerAfter_two_bits hij he, ne_eq, BitVec.xor_eq_zero_iff]
    exact bitSteps_poly_ne (Nat.sub_pos_of_lt hij) hlt

/-! The four kinds, and the packet. -/

/-- No pattern of the four kinds, of any length, is a multiple of the generator. A single bit is an odd number of bits. -/
theorem crc0_ne_zero_of_guaranteedDetectable {e : List Byte} (h : GuaranteedDetectable e) : crc0 e ≠ 0x0000#16 := by
  obtain ⟨⟨i, -, hi⟩, hsingle | ⟨k, hburst⟩ | ⟨i, j, hij, hlt, htwo⟩ | hodd⟩ := h
  · exact crc0_ne_zero_of_odd_weight (by rw [hsingle])
  · exact crc0_ne_zero_of_burst hi hburst
  · exact crc0_ne_zero_of_two_bits hij hlt htwo
  · exact crc0_ne_zero_of_odd_weight hodd

theorem take_xorBytes (xs e : List Byte) :
    (xorBytes xs e).take e.length = List.zipWith (fun x y => x ^^^ y) (xs.take e.length) e := by
  induction xs generalizing e with
  | nil => simp [xorBytes]
  | cons x xs ih =>
    cases e with
    | nil => simp
    | cons y e => simp [xorBytes, ih]

theorem packetBytes_xorPayload {p : Packet} {e : List Byte} (he : e.length = p.length.toNat) :
    packetBytes (xorPayload p e) = List.zipWith (fun x y => x ^^^ y) (packetBytes p) e := by
  rw [packetBytes, packetBytes, xorPayload_length, ← he, ← take_xorBytes]
  rfl

/-- The engine is linear, so the message drops out of the comparison (40_crc_engine.md R60). -/
theorem isCorrupted_xorPayload {p : Packet} {e : List Byte} (hp : p.wellFormed = true)
    (hstored : p.storedChecksum = computeChecksum (packetBytes p)) (he : e.length = p.length.toNat) :
    isCorrupted (xorPayload p e) = .ok (decide (crc0 e ≠ 0x0000#16)) := by
  obtain ⟨-, -, hlinear⟩ := engineIsLinear
  rw [isCorrupted_wellFormed (p := xorPayload p e) hp, packetBytes_xorPayload he,
    hlinear _ _ ((packetBytes_length hp).trans he.symm), xorPayload_storedChecksum, hstored, verdictOf]
  simp

/-- Settles O51: the message drops out, and no pattern of the four kinds drives the register back to zero. -/
theorem guaranteedDetection : Obligations.GuaranteedDetection := by
  intro p e hp hstored he hkind
  rw [isCorrupted_xorPayload hp hstored he, decide_eq_true (crc0_ne_zero_of_guaranteedDetectable hkind)]

end Sys2Proof.Machine
end

section
/-! Faulted runs (60_exceptions.md R74, R75): a run of words always ends, its `err` gathers the illegal words, and the end
is read by `err`. -/

namespace Sys2Proof.Machine

/-- The block reaches the end of every run (60_exceptions.md R74). -/
theorem runWords_answers (ws : List Word) (s : State) : ∃ t, runWords ws s = .next t := by
  induction ws generalizing s with
  | nil => exact ⟨s, rfl⟩
  | cons w ws ih =>
    obtain ⟨u, hu⟩ := consume_answers w s
    rw [runWords_cons, hu]
    exact ih u

/-- `err` is sticky over a run, and an illegal word alone sets it (60_exceptions.md R73). -/
theorem runWords_err_iff {ws : List Word} {s t : State} (h : runWords ws s = .next t) :
    t.err = true ↔ s.err = true ∨ ∃ w ∈ ws, ∃ r, decode w = .error r := by
  induction ws generalizing s with
  | nil => cases h; simp
  | cons w ws ih =>
    obtain ⟨u, hu⟩ := consume_answers w s
    rw [runWords_cons, hu] at h
    simp only [ih h, consume_err_iff hu, or_assoc, List.mem_cons, exists_eq_or_imp]

theorem endOfRun_of_faulted {s : State} (h : Faulted s) : endOfRun s = .fault .illegalCommand :=
  if_pos h

theorem endOfRun_of_not_faulted {s : State} (h : ¬ Faulted s) : endOfRun s = .next s :=
  if_neg h

theorem endOfRun_eq_fault_iff {s : State} : endOfRun s = .fault .illegalCommand ↔ Faulted s := by
  refine ⟨fun h => ?_, endOfRun_of_faulted⟩
  by_contra hs
  rw [endOfRun_of_not_faulted hs] at h
  cases h

/-- Settles O41: the run ends, and `err`, clear at reset, is set at its end exactly by the illegal words among its own. -/
theorem runFaultedExactlyByIllegalWords : Obligations.RunFaultedExactlyByIllegalWords := by
  intro ws
  obtain ⟨t, ht⟩ := runWords_answers ws State.reset
  have hreset : State.reset.err ≠ true := Bool.false_ne_true
  have herr : Faulted t ↔ ∃ w ∈ ws, ∃ r, decode w = .error r := (runWords_err_iff ht).trans (or_iff_right hreset)
  exact ⟨t, ht, herr, endOfRun_eq_fault_iff, endOfRun_of_not_faulted⟩

end Sys2Proof.Machine
end

section
/-! Reset and the verdict's life (70_reset_and_hazards.md R83, R84, R87): a reset edge from any state, the view reads before
the first reset, and the verdict read with and without `vld`. -/

namespace Sys2Proof.Machine

/-! A reset edge. -/

theorem cmdReady_of_rst {e : Edge} (h : e.rst = true) : cmdReady e = false := by
  simp [cmdReady, h]

theorem accepted_of_rst {e : Edge} (h : e.rst = true) : accepted e = false := by
  simp [accepted, h]

theorem clockEdge_of_rst {e : Edge} (h : e.rst = true) (s : State) : clockEdge e s = .next (applyReset s) :=
  if_pos h

theorem step_resetEdge {s : State} {e : Edge} {rest : List Edge} (he : s.edges = e :: rest) (hrst : e.rst = true) :
    step s = .next (applyReset { s with edges := rest }) := by
  rw [step_edge he, clockEdge_of_rst hrst]

/-! The view reads before the first reset. -/

theorem readStatus_beforeReset {s : State} (h : s.wasReset = false) : readStatus s = .fault .beforeReset := by
  simp [readStatus, h]

theorem readStored_beforeReset {s : State} (h : s.wasReset = false) : readStored s = .fault .beforeReset := by
  simp [readStored, h]

theorem readVerdict_beforeReset {s : State} (h : s.wasReset = false) : readVerdict s = .fault .beforeReset := by
  simp [readVerdict, h]

/-! The verdict. -/

theorem readVerdict_of_not_vld {s : State} (hreset : s.wasReset = true) (hvld : s.vld = false) :
    readVerdict s = .refused .noVerdict := by
  rw [readVerdict, if_pos hreset, status_vld, if_neg (ne_true_of_eq_false hvld)]

/-- INIT and BYTE clear the verdict pair, and a block that was reset stays so (10_state.md R16, R17). -/
theorem exec_clears_verdict {s t : State} (h : exec .init s = .next t ∨ ∃ d, exec (.byte d) s = .next t) :
    t.vld = false ∧ t.corrupted = false ∧ t.wasReset = s.wasReset := by
  obtain h | ⟨d, h⟩ := h
  · cases h; exact ⟨rfl, rfl, rfl⟩
  · cases h; exact ⟨rfl, rfl, rfl⟩

/-! The statements. -/

/-- Settles O16: a reset edge leaves `applyReset`'s values, whatever the state was. -/
theorem resetState : Obligations.ResetState := by
  refine ⟨⟨rfl, rfl, rfl, rfl, rfl, rfl⟩, fun s e rest he hrst => ?edge, fun s hs => ?before⟩
  case edge => exact ⟨_, step_resetEdge he hrst, rfl, rfl, rfl, rfl, rfl, rfl⟩
  case before => exact ⟨readStatus_beforeReset hs, readStored_beforeReset hs, readVerdict_beforeReset hs⟩

/-- Settles O17: `rst` closes the port, and the edge after the reset takes what is still offered. -/
theorem resetDominates : Obligations.ResetDominates := by
  intro s e rest he hrst
  refine ⟨cmdReady_of_rst hrst, accepted_of_rst hrst, step_resetEdge he hrst, fun i later hrest => ?_⟩
  exact ⟨offer (encode i), later, hrest, rfl, rfl⟩

/-- Settles O29: the read asks for `vld`, which INIT and BYTE clear, and both leave the block reset. -/
theorem staleVerdictRefused : Obligations.StaleVerdictRefused := by
  refine ⟨fun s hs => ⟨readVerdict_of_not_vld hs, readVerdict_of_vld hs⟩, fun s t hs h => ?taken⟩
  case taken =>
    obtain ⟨hvld, hcorrupted, hreset⟩ := exec_clears_verdict h
    exact ⟨hvld, hcorrupted, readVerdict_of_not_vld (hreset.trans hs) hvld⟩

end Sys2Proof.Machine
end

section
/-! The round trips between commands and words (30_encoding.md R38 to R43), each read off the decoder's specification. -/

namespace Sys2Proof

/-- Settles O2: the decoder reads each command's word. -/
theorem decodeOfEncode : Obligations.DecodeOfEncode :=
  decode_encode

/-- Settles O3: the decoder reads no other word as that command. -/
theorem encodeOfDecode : Obligations.EncodeOfDecode := fun _ _ h =>
  (decode_eq_ok_iff.mp h).symm

end Sys2Proof
end

section
/-! The corner cases of BYTE (40_crc_engine.md section 2). A byte step shifts the low octet up and its feedback depends on
the high octet alone, so the low octet of the result does too: a fixed point of the zero byte is told by its high octet. -/

namespace Sys2Proof.Machine

theorem highByte_append_lowByte (r : Half) : highByte r ++ lowByte r = r :=
  (BitVec.extractLsb'_append_extractLsb'_eq_extractLsb' rfl).trans BitVec.extractLsb'_eq_self

theorem lowByte_xor (r q : Half) : lowByte (r ^^^ q) = lowByte r ^^^ lowByte q :=
  BitVec.extractLsb'_xor

theorem lowByte_shiftLeft (r : Half) : lowByte (r <<< 8) = 0x00#8 := by
  apply BitVec.eq_of_getLsbD_eq
  intro i hi
  simp [lowByte, hi]

/-- The low octet after a byte step is that of the feedback. -/
theorem lowByte_byteStep (r : Half) (d : Byte) :
    lowByte (byteStep r d) = lowByte (byteStep 0x0000#16 (highByte r ^^^ d)) := by
  rw [byteStep_eq_shift_xor, lowByte_xor, lowByte_shiftLeft, BitVec.zero_xor]

/-- The one register value with the high octet `h` that a zero byte may leave alone. -/
def zeroByteCandidate (h : Byte) : Half := h ++ lowByte (byteStep 0x0000#16 h)

theorem eq_zeroByteCandidate {r : Half} (h : byteStep r 0x00#8 = r) : r = zeroByteCandidate (highByte r) := by
  have hlow : lowByte r = lowByte (byteStep 0x0000#16 (highByte r)) := by
    rw [← BitVec.xor_zero (x := highByte r), ← lowByte_byteStep, h]
  rw [zeroByteCandidate, ← hlow, highByte_append_lowByte]

/-- Of the 256 candidates two are fixed points. -/
theorem zeroByteCandidate_fixed : ∀ h : Byte,
    byteStep (zeroByteCandidate h) 0x00#8 = zeroByteCandidate h →
      zeroByteCandidate h = 0x0000#16 ∨ zeroByteCandidate h = 0xF01F#16 := by
  decide +kernel

theorem byteStep_zero_second_fixed_point : byteStep 0xF01F#16 0x00#8 = 0xF01F#16 := by decide

/-- Settles O10: a fixed point is the candidate of its high octet, and the candidates are computed. -/
theorem zeroByteFixedPoints : Obligations.ZeroByteFixedPoints := by
  refine fun r => ⟨fun h => ?fixed, ?values⟩
  case fixed =>
    have hr := eq_zeroByteCandidate h
    rw [hr] at h ⊢
    exact zeroByteCandidate_fixed _ h
  case values =>
    rintro (rfl | rfl)
    exacts [byteStep_zero_zero, byteStep_zero_second_fixed_point]

/-- Refutes O11: a zero byte leaves 0xF01F alone (assumption 9). -/
theorem not_zeroByteChangesEveryNonzeroRegister : ¬ Obligations.ZeroByteChangesEveryNonzeroRegister := fun h =>
  h 0xF01F#16 (by decide) byteStep_zero_second_fixed_point

/-- Settles O12: the feedback is that of a zero byte on a zero register. -/
theorem matchingHighOctetCancels : Obligations.MatchingHighOctetCancels := by
  rintro r d rfl
  exact byteStep_highByte r

end Sys2Proof.Machine
end

section
/-! What each command writes and what it leaves alone (40_crc_engine.md R53 to R55; 41_detector.md R63, R71). -/

namespace Sys2Proof.Machine

/-- NOP and CHECK leave the register alone (41_detector.md R71). -/
theorem exec_crc_of_not_engine {i : Instr} {s t : State} (h : exec i s = .next t) (hinit : i ≠ .init)
    (hbyte : ∀ d, i ≠ .byte d) : t.crc = s.crc := by
  cases i with
  | nop => cases h; rfl
  | init => exact absurd rfl hinit
  | byte d => exact absurd rfl (hbyte d)
  | check v => cases h; rfl

/-- NOP leaves the verdict pair alone (40_crc_engine.md R53). -/
theorem exec_nop_verdict {s t : State} (h : exec .nop s = .next t) : t.vld = s.vld ∧ t.corrupted = s.corrupted := by
  cases h
  exact ⟨rfl, rfl⟩

/-- Settles O8: BYTE's rule, each register read off. -/
theorem byteResult : Obligations.ByteResult := exec_byte

/-- Settles O13: what all commands leave alone, then `stored`, `crc` and the verdict by command. -/
theorem commandFrames : Obligations.CommandFrames := by
  intro i s t h
  obtain ⟨herr, hreset, hedges, -⟩ := exec_common h
  refine ⟨herr, hreset, hedges, exec_stored_of_not_check h, ?crc, ?verdict⟩
  case crc =>
    rintro (rfl | ⟨v, rfl⟩)
    · exact exec_crc_of_not_engine h (by simp) (by simp)
    · exact exec_crc_of_not_engine h (by simp) (by simp)
  case verdict =>
    rintro rfl
    exact exec_nop_verdict h

end Sys2Proof.Machine
end

section
/-! One rising edge (10_state.md R24): what the step answers at each kind of edge that is no reset edge, and the
statements about single edges. -/

namespace Sys2Proof.Machine

/-! The kinds of edges. -/

/-- `cmd_ready` is the block's readiness wherever `rst` is 0. -/
theorem accepted_iff {e : Edge} :
    accepted e = true ↔ e.rst = false ∧ e.cmdValid = true ∧ e.blockReady = true := by
  cases hrst : e.rst <;> simp [accepted, cmdReady, hrst]

theorem not_accepted_of_quiet_or_busy {e : Edge} (h : e.cmdValid = false ∨ e.blockReady = false) :
    accepted e = false := by
  obtain h | h := h <;> simp [accepted, cmdReady, h]

theorem step_consumes {s : State} {e : Edge} {rest : List Edge} (he : s.edges = e :: rest) (ha : accepted e = true)
    (hreset : s.wasReset = true) : step s = consume e.cmdData { s with edges := rest } := by
  rw [step_edge he, clockEdge, if_neg (by simp [accepted_rst ha]), if_pos ha, if_pos hreset]

theorem step_beforeReset {s : State} {e : Edge} {rest : List Edge} (he : s.edges = e :: rest) (ha : accepted e = true)
    (hreset : s.wasReset = false) : step s = .fault .beforeReset := by
  rw [step_edge he, clockEdge, if_neg (by simp [accepted_rst ha]), if_pos ha, if_neg (by simp [hreset])]

theorem step_idle {s : State} {e : Edge} {rest : List Edge} (he : s.edges = e :: rest) (hrst : e.rst = false)
    (ha : accepted e = false) : step s = .next { s with edges := rest } := by
  rw [step_edge he, clockEdge, if_neg (by simp [hrst]), if_neg (by simp [ha])]

theorem runSteps_one (s : State) : runSteps 1 s = step s := by
  rw [runSteps_succ]
  cases step s <;> rfl

/-! The statements. -/

/-- Settles O14: an accepted edge consumes its word, and a legal word is its command. -/
theorem stepRunsDecodedCommand : Obligations.StepRunsDecodedCommand := by
  intro s e rest i hreset he hrst hvalid hready hd
  rw [step_consumes he (accepted_iff.mpr ⟨hrst, hvalid, hready⟩) hreset, consume_legal hd]

/-- Settles O15: an accepted edge consumes its word, and an illegal word raises the exception, which no command does. -/
theorem illegalWordTakesException : Obligations.IllegalWordTakesException := by
  refine ⟨fun s e rest r hreset he hrst hvalid hready hd => ?illegal, fun i s => ?legal⟩
  case illegal =>
    rw [step_consumes he (accepted_iff.mpr ⟨hrst, hvalid, hready⟩) hreset, consume_illegal hd]
    rfl
  case legal =>
    obtain ⟨t, ht⟩ := exec_answers i s
    exact ⟨t, ht, (exec_common ht).1⟩

/-- Settles O18: such an edge is not accepted. -/
theorem edgeWithoutCommandHolds : Obligations.EdgeWithoutCommandHolds := fun _ _ _ he hrst h =>
  step_idle he hrst (not_accepted_of_quiet_or_busy h)

/-- Settles O19, by induction on the number of steps. -/
theorem quietHostHolds : Obligations.QuietHostHolds := by
  intro s hs k
  induction k with
  | zero => rfl
  | succ k ih => rw [runSteps_succ, step_quiet hs, andThen_next, ih]

/-- Settles O54: the accepted edge finds the block without a state. -/
theorem commandBeforeResetFaults : Obligations.CommandBeforeResetFaults := fun _ _ _ hreset he ha =>
  step_beforeReset he ha hreset

/-- Settles O55: the reset edge, then the accepted edge of the reset block. -/
theorem pendingCommandRunsAfterReset : Obligations.PendingCommandRunsAfterReset := by
  intro s e i later he hrst
  rw [runSteps_succ, step_resetEdge he hrst, andThen_next, runSteps_one,
    step_consumes (e := offer (encode i)) (rest := later) rfl rfl rfl]
  exact consume_legal (decode_encode i) _

end Sys2Proof.Machine
end

section
/-! The life of each register over a step (10_state.md R15 to R20). A step without reset either consumes the one word of
the next edge or leaves all but the edges alone; each register's law over a step is then its law over a consumed word. -/

namespace Sys2Proof.Machine

/-! The step between resets. -/

theorem nextConsumes_iff {s : State} {e : Edge} {rest : List Edge} (he : s.edges = e :: rest) {w : Word} :
    NextConsumes s w ↔ accepted e = true ∧ e.cmdData = w := by
  constructor
  · rintro ⟨e', rest', he', ha, hw⟩
    obtain ⟨rfl, -⟩ := List.cons.inj (he.symm.trans he')
    exact ⟨ha, hw⟩
  · exact fun ⟨ha, hw⟩ => ⟨e, rest, he, ha, hw⟩

/-- All that a step without reset can do: consume the next edge's word, or hold. -/
theorem step_cases_of_not_reset {s t : State} (h : step s = .next t) (hreset : ¬ NextIsReset s) :
    (∃ w, (∀ v, NextConsumes s v ↔ w = v) ∧ consume w { s with edges := s.edges.tail } = .next t) ∨
    ((∀ v, ¬ NextConsumes s v) ∧ t = { s with edges := s.edges.tail }) := by
  obtain ⟨hnil, rfl⟩ | ⟨e, rest, he, ⟨hrst, -⟩ | ⟨-, ha, -, hc⟩ | ⟨-, ha, rfl⟩⟩ := step_cases h
  · refine .inr ⟨fun v hv => ?_, by rw [hnil, List.tail_nil, ← hnil]⟩
    obtain ⟨e, rest, he, -⟩ := hv
    cases hnil.symm.trans he
  · exact absurd ⟨e, rest, he, hrst⟩ hreset
  · exact .inl ⟨e.cmdData, fun v => by simp [nextConsumes_iff he, ha], by rwa [he]⟩
  · exact .inr ⟨fun v => by simp [nextConsumes_iff he, ha], by rw [he, List.tail_cons]⟩

/-- The step that consumes a word consumes the command the word decodes to. -/
theorem nextConsumes_encode_iff {s : State} {w : Word} (hw : ∀ v, NextConsumes s v ↔ w = v) (i : Instr) :
    NextConsumes s (encode i) ↔ decode w = .ok i :=
  (hw _).trans decode_eq_ok_iff.symm

theorem step_of_nextIsReset {s t : State} (h : step s = .next t) (hreset : NextIsReset s) :
    t = applyReset { s with edges := s.edges.tail } := by
  obtain ⟨e, rest, he, hrst⟩ := hreset
  rw [step_resetEdge he hrst] at h
  cases h
  rw [he, List.tail_cons]

theorem step_edges {s t : State} (h : step s = .next t) : t.edges = s.edges.tail := by
  by_cases hreset : NextIsReset s
  · rw [step_of_nextIsReset h hreset, applyReset_edges]
  · obtain ⟨w, -, hc⟩ | ⟨-, rfl⟩ := step_cases_of_not_reset h hreset
    · exact (consume_common hc).2.1
    · rfl

/-- A block that has been reset stays so. -/
theorem step_keeps_wasReset {s t : State} (h : step s = .next t) (hs : s.wasReset = true) : t.wasReset = true := by
  by_cases hreset : NextIsReset s
  · rw [step_of_nextIsReset h hreset, applyReset_wasReset]
  · obtain ⟨w, -, hc⟩ | ⟨-, rfl⟩ := step_cases_of_not_reset h hreset
    · exact (consume_common hc).1.trans hs
    · exact hs

/-- The step faults only where a word is consumed before the first reset. -/
theorem step_answers {s : State} (h : s.wasReset = true ∨ ∀ w, ¬ NextConsumes s w) : ∃ t, step s = .next t := by
  cases he : s.edges with
  | nil => exact ⟨s, step_quiet he⟩
  | cons e rest =>
    cases hrst : e.rst with
    | true => exact ⟨_, step_resetEdge he hrst⟩
    | false =>
      cases ha : accepted e with
      | false => exact ⟨_, step_idle he hrst ha⟩
      | true =>
        have hs : s.wasReset = true := h.resolve_right fun hno => hno e.cmdData ((nextConsumes_iff he).mpr ⟨ha, rfl⟩)
        rw [step_consumes he ha hs]
        exact consume_answers _ _

/-! The register `crc` over one consumed word. -/

theorem consume_crc_of_not_engine {w : Word} {s t : State} (h : consume w s = .next t)
    (hinit : decode w ≠ .ok .init) (hbyte : ∀ d, decode w ≠ .ok (.byte d)) : t.crc = s.crc := by
  obtain ⟨i, hd, hi⟩ | ⟨r, -, rfl⟩ := consume_cases h
  · exact exec_crc_of_not_engine hi (fun hinit' => hinit (hinit' ▸ hd)) fun d hbyte' => hbyte d (hbyte' ▸ hd)
  · rfl

theorem consume_init_crc {w : Word} (hd : decode w = .ok .init) {s t : State} (h : consume w s = .next t) :
    t.crc = 0xFFFF#16 := by
  rw [consume_legal hd] at h
  cases h
  rfl

theorem consume_byte_crc {w : Word} {d : Byte} (hd : decode w = .ok (.byte d)) {s t : State}
    (h : consume w s = .next t) : t.crc = byteStep s.crc d := by
  rw [consume_legal hd] at h
  cases h
  rfl

/-! The statements. -/

/-- Settles O20: the consumed word's law of `err`, and the step of a reset block, which never stops. -/
theorem errorBitLife : Obligations.ErrorBitLife := by
  refine ⟨rfl, fun s t h hreset => ?step, fun s t h hreset => ?reset, fun _ _ _ b h => exec_withErr h b,
    fun s hs => ?goesOn⟩
  case step =>
    obtain ⟨w, hw, hc⟩ | ⟨hnone, rfl⟩ := step_cases_of_not_reset h hreset
    · simpa only [hw, exists_and_left, exists_eq_left'] using consume_err_iff hc
    · exact (or_iff_left fun ⟨w, _, hw, _⟩ => hnone w hw).symm
  case reset => rw [step_of_nextIsReset h hreset, applyReset_err]
  case goesOn =>
    obtain ⟨t, ht⟩ := step_answers (.inl hs)
    exact ⟨t, ht, step_keeps_wasReset ht hs⟩

/-- A command run with another `stored` ends in a state that agrees on all that is read, on `err` and on `cix`. -/
theorem exec_withStored_agrees {i : Instr} {s t : State} (h : exec i s = .next t) (v : Half) :
    ∃ u, exec i { s with stored := v } = .next u ∧ AgreeOnRead t u ∧ u.err = t.err ∧ u.cix = t.cix := by
  obtain ⟨u, hu, ht⟩ := exec_withStored h v
  rw [← ht]
  exact ⟨u, hu, ⟨rfl, rfl, rfl, rfl, rfl⟩, rfl, rfl⟩

/-- Settles O21: the consumed word's law of `stored`. -/
theorem storedLife : Obligations.StoredLife := by
  refine ⟨rfl, fun s t h hreset => ?step, fun _ _ _ v h => exec_withStored_agrees h v⟩
  case step =>
    obtain ⟨w, hw, hc⟩ | ⟨hnone, rfl⟩ := step_cases_of_not_reset h hreset
    · have hother := consume_stored_of_not_check hc
      simp only [nextConsumes_encode_iff hw]
      exact ⟨fun v hd => (consume_check hd hc).1, hother⟩
    · exact ⟨fun v hv => absurd hv (hnone _), fun _ => rfl⟩

/-- Settles O22: every consumed word counts one, and the edges lose their first. -/
theorem commandIndexLife : Obligations.CommandIndexLife := by
  refine ⟨rfl, fun s t h hreset => ?step, fun s t h hreset => ?reset, fun _ _ _ n h => exec_withCix h n,
    fun _ _ => rfl, fun _ _ => step_edges⟩
  case step =>
    obtain ⟨w, hw, hc⟩ | ⟨hnone, rfl⟩ := step_cases_of_not_reset h hreset
    · obtain ⟨-, -, hcix⟩ := consume_common hc
      exact ⟨fun _ _ => hcix, fun hno => absurd ((hw w).mpr rfl) (hno w)⟩
    · exact ⟨fun v hv => absurd hv (hnone v), fun _ => rfl⟩
  case reset => rw [step_of_nextIsReset h hreset, applyReset_cix]

/-- Settles O23: the consumed word's law of `vld`. -/
theorem verdictValidLife : Obligations.VerdictValidLife := by
  refine ⟨rfl, fun s t h hreset => ?step⟩
  case step =>
    obtain ⟨w, hw, hc⟩ | ⟨hnone, rfl⟩ := step_cases_of_not_reset h hreset
    · have hvld := consume_vld_iff hc
      simpa only [nextConsumes_encode_iff hw] using hvld
    · exact ⟨fun hv => .inr ⟨hv, hnone _, fun _ => hnone _⟩,
        fun hv => (hv.resolve_left fun ⟨_, hcheck⟩ => hnone _ hcheck).1⟩

/-- Settles O24: the consumed word's law of `crc`. -/
theorem crcRegisterLife : Obligations.CrcRegisterLife := by
  refine ⟨rfl, fun s t h hreset => ?step⟩
  case step =>
    obtain ⟨w, hw, hc⟩ | ⟨hnone, rfl⟩ := step_cases_of_not_reset h hreset
    · have hbyte := fun d (hd : decode w = .ok (.byte d)) => consume_byte_crc hd hc
      have hother := consume_crc_of_not_engine hc
      simp only [nextConsumes_encode_iff hw]
      exact ⟨fun hd => consume_init_crc hd hc, hbyte, hother⟩
    · exact ⟨fun hv => absurd hv (hnone _), fun _ hv => absurd hv (hnone _), fun _ _ => rfl⟩

end Sys2Proof.Machine
end

section
/-! The invariant of the verdict registers (10_state.md R17; 41_detector.md R63, R71, R72): each command, each consumed
word and each step keeps it. -/

namespace Sys2Proof.Machine

/-- INIT and BYTE clear the verdict pair, CHECK sets all three registers that the invariant compares, NOP none. -/
theorem exec_keeps_verdictInv {i : Instr} {s t : State} (hinv : VerdictInv s) (h : exec i s = .next t) :
    VerdictInv t := by
  cases i with
  | nop => cases h; exact hinv
  | init => cases h; exact ⟨fun _ => rfl, nofun⟩
  | byte d => cases h; exact ⟨fun _ => rfl, nofun⟩
  | check v => cases h; exact ⟨nofun, fun _ => rfl⟩

theorem consume_keeps_verdictInv {w : Word} {s t : State} (hinv : VerdictInv s) (h : consume w s = .next t) :
    VerdictInv t := by
  obtain ⟨i, -, hi⟩ | ⟨r, -, rfl⟩ := consume_cases h
  · exact exec_keeps_verdictInv hinv hi
  · exact hinv

/-- Settles O26: there is no verdict after reset. -/
theorem verdictInvariantAtReset : Obligations.VerdictInvariantAtReset :=
  ⟨fun _ => rfl, nofun⟩

/-- Settles O25: a reset edge gives the reset values, a consumed word keeps the invariant, and every other edge holds. -/
theorem verdictInvariantKept : Obligations.VerdictInvariantKept := by
  intro s t hinv h
  by_cases hreset : NextIsReset s
  · rw [step_of_nextIsReset h hreset]
    exact verdictInvariantAtReset
  · obtain ⟨w, -, hc⟩ | ⟨-, rfl⟩ := step_cases_of_not_reset h hreset
    · exact consume_keeps_verdictInv (s := { s with edges := s.edges.tail }) hinv hc
    · exact hinv

end Sys2Proof.Machine
end

section
/-! The registers that nothing reads (10_state.md R18, R19, R20): commands, consumed words and steps keep the agreement of
two blocks on everything else, and both stop alike. -/

namespace Sys2Proof.Machine

theorem exec_keeps_agreement {i : Instr} {s t s' : State} (hst : AgreeOnRead s t) (h : exec i s = .next s') :
    ∃ t', exec i t = .next t' ∧ AgreeOnRead s' t' := by
  obtain ⟨hcrc, hvld, hcorrupted, hreset, hedges⟩ := hst
  cases i with
  | nop => cases h; exact ⟨_, rfl, hcrc, hvld, hcorrupted, hreset, hedges⟩
  | init => cases h; exact ⟨_, rfl, rfl, rfl, rfl, hreset, hedges⟩
  | byte d => cases h; exact ⟨_, rfl, congrArg (byteStep · d) hcrc, rfl, rfl, hreset, hedges⟩
  | check v => cases h; exact ⟨_, rfl, hcrc, rfl, congrArg (verdictOf · v) hcrc, hreset, hedges⟩

theorem consume_keeps_agreement {w : Word} {s t s' : State} (hst : AgreeOnRead s t) (h : consume w s = .next s') :
    ∃ t', consume w t = .next t' ∧ AgreeOnRead s' t' := by
  obtain ⟨i, hd, hi⟩ | ⟨r, hd, rfl⟩ := consume_cases h
  · rw [consume_legal hd]
    exact exec_keeps_agreement hst hi
  · exact ⟨_, consume_illegal hd t, hst⟩

theorem step_keeps_agreement {s t s' : State} (hst : AgreeOnRead s t) (h : step s = .next s') :
    ∃ t', step t = .next t' ∧ AgreeOnRead s' t' := by
  have ⟨hcrc, hvld, hcorrupted, hreset, hedges⟩ := hst
  obtain ⟨he, rfl⟩ | ⟨e, rest, he, ⟨hrst, rfl⟩ | ⟨-, ha, hs, hc⟩ | ⟨hrst, ha, rfl⟩⟩ := step_cases h <;>
    rw [hedges] at he
  · exact ⟨t, step_quiet he, hst⟩
  · exact ⟨_, step_resetEdge he hrst, rfl, rfl, rfl, rfl, rfl⟩
  · have hrest : AgreeOnRead { s with edges := rest } { t with edges := rest } :=
      ⟨hcrc, hvld, hcorrupted, hreset, rfl⟩
    rw [step_consumes he ha (hreset ▸ hs)]
    exact consume_keeps_agreement hrest hc
  · exact ⟨_, step_idle he hrst ha, hcrc, hvld, hcorrupted, hreset, rfl⟩

/-- The step answers a next state or raises the one fault, never a refusal. -/
theorem step_answers_or_faults (s : State) :
    (∃ t, step s = .next t) ∨
      step s = .fault .beforeReset ∧ s.wasReset = false ∧ ∃ e rest, s.edges = e :: rest ∧ accepted e = true := by
  by_cases h : s.wasReset = true ∨ ∀ w, ¬ NextConsumes s w
  · exact .inl (step_answers h)
  · push Not at h
    obtain ⟨hs, w, e, rest, he, ha, -⟩ := h
    have hs' : s.wasReset = false := by simpa using hs
    exact .inr ⟨step_beforeReset he ha hs', hs', e, rest, he, ha⟩

theorem step_fault_of_agreement {s t : State} (hst : AgreeOnRead s t) {r : Fault} (h : step s = .fault r) :
    step t = .fault r := by
  obtain ⟨-, -, -, hreset, hedges⟩ := hst
  obtain ⟨u, hu⟩ | ⟨hfault, hs, e, rest, he, ha⟩ := step_answers_or_faults s
  · cases hu.symm.trans h
  · cases hfault.symm.trans h
    exact step_beforeReset (hedges ▸ he) ha (hreset ▸ hs)

theorem step_ne_refused (s : State) (r : Refusal) : step s ≠ .refused r := by
  intro h
  obtain ⟨u, hu⟩ | ⟨hfault, -⟩ := step_answers_or_faults s
  · cases hu.symm.trans h
  · cases hfault.symm.trans h

/-- Settles O27: no rule reads the three registers, and the block stops by the edges and the reset mark alone. -/
theorem unreadRegistersNeverMatter : Obligations.UnreadRegistersNeverMatter := fun s _ hst =>
  ⟨fun _ => step_keeps_agreement hst, fun _ => step_fault_of_agreement hst, fun r h => absurd h (step_ne_refused s r)⟩

end Sys2Proof.Machine
end

section
/-! The views (10_state.md R21): the remaining fields of STATUS, and the reads of a block that was reset. -/

namespace Sys2Proof.Machine

theorem status_err (s : State) : (status s).getLsbD 18 = s.err := by
  simp only [status, BitVec.getLsbD_append]
  simp

/-- STATUS[31:19] is hardwired 0 (10_state.md R21). -/
theorem status_reserved (s : State) : (status s).extractLsb' 19 13 = 0#13 := by
  apply BitVec.eq_of_getLsbD_eq
  intro i hi
  have h16 : ¬ 19 + i < 16 := by omega
  have h17 : ¬ 19 + i - 16 < 1 := by omega
  have h18 : ¬ 19 + i - 16 - 1 < 1 := by omega
  have h19 : ¬ 19 + i - 16 - 1 - 1 < 1 := by omega
  simp only [status, BitVec.getLsbD_extractLsb', BitVec.getLsbD_append, h16, h17, h18, h19, if_false,
    BitVec.getLsbD_zero, Bool.and_false]

theorem readStatus_of_wasReset {s : State} (h : s.wasReset = true) : readStatus s = .next (status s) :=
  if_pos h

theorem readStored_of_wasReset {s : State} (h : s.wasReset = true) : readStored s = .next (storedOut s) :=
  if_pos h

/-- Settles O28: STATUS field by field, the reads, and the step that neither resets nor consumes. -/
theorem statusLayout : Obligations.StatusLayout := by
  refine ⟨fun s => ⟨status_crc s, status_vld s, status_corrupted s, status_err s, status_reserved s, rfl⟩,
    by decide, rfl, fun s hs => ⟨readStatus_of_wasReset hs, readStored_of_wasReset hs⟩,
    fun s t h hreset hnone => ?holds⟩
  case holds =>
    obtain ⟨w, hw, -⟩ | ⟨-, ht⟩ := step_cases_of_not_reset h hreset
    · exact absurd ((hw w).mpr rfl) (hnone w)
    · exact ht

end Sys2Proof.Machine
end

section
/-! Runs of words: the register along a run without INIT (40_crc_engine.md R51; 70_reset_and_hazards.md R85), and the
observations of a run (10_state.md R25). -/

namespace Sys2Proof.Machine

/-! A run without INIT. -/

theorem bytesFed_cons (i : Instr) (l : List Instr) : bytesFed (i :: l) = bytesFed [i] ++ bytesFed l := by
  cases i <;> rfl

/-- Any command but INIT takes the register through the bytes it feeds: one for BYTE, none for NOP and CHECK. -/
theorem exec_crc_of_not_init {i : Instr} {s t : State} (h : exec i s = .next t) (hi : i ≠ .init) :
    t.crc = crcFrom s.crc (bytesFed [i]) := by
  cases i with
  | nop => cases h; rfl
  | init => exact absurd rfl hi
  | byte d => cases h; rfl
  | check v => cases h; rfl

/-- Settles O40, by induction on the list of commands. -/
theorem bytesContinueWithoutInit : Obligations.BytesContinueWithoutInit := by
  intro s l hl
  induction l generalizing s with
  | nil => exact ⟨s, rfl, rfl⟩
  | cons i l ih =>
    obtain ⟨hi, hl⟩ := not_or.mp (mt List.mem_cons.mpr hl)
    obtain ⟨u, hu⟩ := exec_answers i s
    obtain ⟨t, ht, hcrc⟩ := ih u hl
    refine ⟨t, by rw [runWords_wordsOf_cons, hu, andThen_next, ht], ?_⟩
    rw [hcrc, exec_crc_of_not_init hu (Ne.symm hi), ← crcFrom_append, ← bytesFed_cons]

/-! Observations. -/

theorem observations_cons {w : Word} {s t : State} (h : consume w s = .next t) (ws : List Word) :
    observations (w :: ws) s = observe t :: observations ws t := by
  simp only [observations, h]

theorem observations_length (ws : List Word) (s : State) : (observations ws s).length = ws.length := by
  induction ws generalizing s with
  | nil => rfl
  | cons w ws ih =>
    obtain ⟨t, ht⟩ := consume_answers w s
    rw [observations_cons ht, List.length_cons, List.length_cons, ih]

theorem observations_getElem? (us vs : List Word) (w : Word) (s : State) :
    ∃ t, runWords (us ++ [w]) s = .next t ∧ (observations (us ++ w :: vs) s)[us.length]? = some (observe t) := by
  induction us generalizing s with
  | nil =>
    obtain ⟨t, ht⟩ := consume_answers w s
    refine ⟨t, by rw [List.nil_append, runWords_cons, ht]; rfl, ?_⟩
    rw [List.nil_append, observations_cons ht]
    rfl
  | cons u us ih =>
    obtain ⟨t, ht⟩ := consume_answers u s
    obtain ⟨t', hrun, hobs⟩ := ih t
    refine ⟨t', by rw [List.cons_append, runWords_cons, ht, andThen_next, hrun], ?_⟩
    rw [List.cons_append, observations_cons ht, List.length_cons, List.getElem?_cons_succ, hobs]

/-- Settles O42, by induction on the words before the one observed. -/
theorem observationAfterEachCommand : Obligations.ObservationAfterEachCommand := by
  refine fun ws s => ⟨observations_length ws s, fun us vs w hws => ?_⟩
  rw [hws]
  exact observations_getElem? us vs w s

end Sys2Proof.Machine
end

section
/-! Clock edges against command words (10_state.md R24; 70_reset_and_hazards.md R83 to R90): taking all the edges is one
step and then taking the rest, and each step between resets consumes the edge's word or nothing. -/

namespace Sys2Proof.Machine

/-! Taking all the edges. -/

theorem drain_of_no_edges {s : State} (h : s.edges = []) : drain s = .next s := by
  rw [drain, h, List.length_nil, runSteps_zero]

theorem drain_of_step {s t : State} (h : step s = .next t) : drain s = drain t := by
  cases he : s.edges with
  | nil => cases (step_quiet he).symm.trans h; rfl
  | cons e rest =>
    rw [drain, drain, step_edges h, he, List.length_cons, runSteps_succ, h, andThen_next, List.tail_cons]

/-! The words consumed at the edges. -/

theorem consumedWords_cons_of_accepted {e : Edge} (h : accepted e = true) (es : List Edge) :
    consumedWords (e :: es) = e.cmdData :: consumedWords es := by
  simp [consumedWords, h]

theorem consumedWords_cons_of_not_accepted {e : Edge} (h : accepted e = false) (es : List Edge) :
    consumedWords (e :: es) = consumedWords es := by
  simp [consumedWords, h]

theorem consumedWords_append (es fs : List Edge) :
    consumedWords (es ++ fs) = consumedWords es ++ consumedWords fs := by
  simp [consumedWords]

/-- No command looks at the coming edges. -/
theorem exec_withEdges {i : Instr} {s t : State} (h : exec i s = .next t) (es : List Edge) :
    exec i { s with edges := es } = .next { t with edges := es } := by
  cases i <;> cases h <;> rfl

theorem consume_withEdges {w : Word} {s t : State} (h : consume w s = .next t) (es : List Edge) :
    consume w { s with edges := es } = .next { t with edges := es } := by
  obtain ⟨i, hd, hi⟩ | ⟨r, hd, rfl⟩ := consume_cases h
  · rw [consume_legal hd]
    exact exec_withEdges hi es
  · exact consume_illegal hd _

/-- Between resets the edges are the words they consume. -/
theorem drain_eq_runWords {es : List Edge} {s : State} (he : s.edges = es) (hs : s.wasReset = true)
    (hrst : ∀ e ∈ es, e.rst = false) : drain s = runWords (consumedWords es) { s with edges := [] } := by
  induction es generalizing s with
  | nil =>
    rw [drain_of_no_edges he]
    cases s
    cases he
    rfl
  | cons e rest ih =>
    obtain ⟨hrst, hrest⟩ := List.forall_mem_cons.mp hrst
    cases ha : accepted e with
    | false =>
      rw [drain_of_step (step_idle he hrst ha), consumedWords_cons_of_not_accepted ha]
      exact ih rfl hs hrest
    | true =>
      obtain ⟨t, ht⟩ := consume_answers e.cmdData { s with edges := rest }
      obtain ⟨hreset, hedges, -⟩ := consume_common ht
      rw [drain_of_step ((step_consumes he ha hs).trans ht), ih hedges (hreset.trans hs) hrest,
        consumedWords_cons_of_accepted ha, runWords_cons, consume_withEdges ht [], andThen_next]

/-- Settles O43: the edges one by one. -/
theorem handshakeRefinesCommandStream : Obligations.HandshakeRefinesCommandStream := fun _ hs hrst =>
  drain_eq_runWords rfl hs hrst

/-! The edges of a latency. -/

theorem busyEdge_rst (o : Option Word) : (busyEdge o).rst = false := by
  cases o <;> rfl

theorem busyEdge_not_accepted (o : Option Word) : accepted (busyEdge o) = false := by
  cases o <;> rfl

theorem consumedWords_busy (n : Nat) (o : Option Word) : consumedWords (List.replicate n (busyEdge o)) = [] := by
  simp [consumedWords, busyEdge_not_accepted]

theorem pacedEdges_rst (latency : Nat → Nat) (ws : List Word) : ∀ e ∈ pacedEdges latency ws, e.rst = false := by
  induction ws generalizing latency with
  | nil => simp [pacedEdges]
  | cons w ws ih =>
    simp only [pacedEdges, List.forall_mem_cons, List.forall_mem_append]
    refine ⟨rfl, fun e he => ?_, ih _⟩
    rw [List.eq_of_mem_replicate he, busyEdge_rst]

theorem consumedWords_pacedEdges (latency : Nat → Nat) (ws : List Word) :
    consumedWords (pacedEdges latency ws) = ws := by
  induction ws generalizing latency with
  | nil => rfl
  | cons w ws ih =>
    rw [pacedEdges, consumedWords_cons_of_accepted rfl, consumedWords_append, consumedWords_busy, List.nil_append, ih]
    rfl

/-- Settles O44: the busy edges between the words consume nothing, and none of the edges is a reset. -/
theorem latencyIsInvisible : Obligations.LatencyIsInvisible := by
  intro latency ws s _ hs he
  rw [drain_eq_runWords he hs (pacedEdges_rst latency ws), consumedWords_pacedEdges]

/-! The last reset. -/

/-- Settles O45, by induction on the edges before the reset: each is a step that answers, and the reset forgets it. -/
theorem lastResetStartsTheRun : Obligations.LastResetStartsTheRun := by
  intro s pre post e hs he hrst hpost
  induction pre generalizing s with
  | nil =>
    rw [drain_of_step (step_resetEdge he hrst), drain_eq_runWords (applyReset_edges _) rfl hpost]
    rfl
  | cons x pre ih =>
    have hnext : s.wasReset = true ∨ ∀ w, ¬ NextConsumes s w :=
      hs.imp_right fun hquiet w => by simp [nextConsumes_iff he, hquiet x List.mem_cons_self]
    obtain ⟨t, ht⟩ := step_answers hnext
    rw [drain_of_step ht]
    refine ih t (hs.imp (step_keeps_wasReset ht) fun hquiet y hy => hquiet y (List.mem_cons_of_mem x hy)) ?_
    rw [step_edges ht, he, List.cons_append, List.tail_cons]

end Sys2Proof.Machine
end

section
/-! What of a packet is never read (20_memory.md R28): the bytes sent are told by `length` and the first `length` bytes,
and everything the host makes of a packet by these and the stored checksum. -/

namespace Sys2Proof.Machine

theorem packetBytes_congr {p q : Packet} (hlength : p.length = q.length)
    (hpayload : ∀ (i : Nat) (h : i < 50), i < p.length.toNat → p.payload[i] = q.payload[i]) :
    packetBytes p = packetBytes q := by
  apply List.ext_getElem?
  intro i
  by_cases hi : i < 50 ∧ i < p.length.toNat
  · obtain ⟨h50, hlen⟩ := hi
    rw [packetBytes_getElem? p h50 hlen, packetBytes_getElem? q h50 (hlength ▸ hlen), hpayload i h50 hlen]
  · have hend : ∀ r : Packet, r.length = p.length → (packetBytes r)[i]? = none := by
      intro r hr
      simp only [packetBytes, List.getElem?_eq_none_iff, List.length_take, Vector.length_toList, hr]
      omega
    rw [hend p rfl, hend q hlength.symm]

theorem packet_wellFormed_congr {p q : Packet} (hlength : p.length = q.length) : p.wellFormed = q.wellFormed := by
  rw [Packet.wellFormed, Packet.wellFormed, hlength]

/-- Settles O47: the two packets send the same bytes. -/
theorem tailAndIdNeverInfluence : Obligations.TailAndIdNeverInfluence := by
  intro p q hlength hstored hpayload
  have hbytes := packetBytes_congr hlength hpayload
  have hcommands : verifyCommands p = verifyCommands q := by rw [verifyCommands, verifyCommands, hbytes, hstored]
  refine ⟨hcommands, ?predicate, ?words⟩
  case predicate => rw [isCorrupted, isCorrupted, packet_wellFormed_congr hlength, hbytes, hstored]
  case words =>
    cases hq : q.wellFormed with
    | true =>
      rw [assemble_verify_wellFormed ((packet_wellFormed_congr hlength).trans hq), assemble_verify_wellFormed hq,
        hcommands]
    | false =>
      rw [assemble_verify_illFormed ((packet_wellFormed_congr hlength).trans hq), assemble_verify_illFormed hq]

end Sys2Proof.Machine
end

section
/-! The assembler's literals (30_encoding.md R46): one in range gives its words, one out of range is refused. -/

namespace Sys2Proof.Machine

section byLiteral

variable {n : Nat}

theorem assemble_byte (h : n < 2 ^ 8) : assemble (.byte n) = .ok [encode (.byte (BitVec.ofNat 8 n))] :=
  if_pos (decide_eq_true h)

theorem assemble_byte_refused (h : 2 ^ 8 ≤ n) : assemble (.byte n) = .error .literalOutOfRange :=
  if_neg (by simpa [AsmLine.wellFormed] using h)

theorem assemble_check (h : n < 2 ^ 16) : assemble (.check n) = .ok [encode (.check (BitVec.ofNat 16 n))] :=
  if_pos (decide_eq_true h)

theorem assemble_check_refused (h : 2 ^ 16 ≤ n) : assemble (.check n) = .error .literalOutOfRange :=
  if_neg (by simpa [AsmLine.wellFormed] using h)

theorem assemble_word (h : n < 2 ^ 32) : assemble (.word n) = .ok [BitVec.ofNat 32 n] :=
  if_pos (decide_eq_true h)

theorem assemble_word_refused (h : 2 ^ 32 ≤ n) : assemble (.word n) = .error .literalOutOfRange :=
  if_neg (by simpa [AsmLine.wellFormed] using h)

end byLiteral

theorem wordsOf_crcCommands (b : List Byte) :
    wordsOf (crcCommands b) = encode .init :: b.map fun d => encode (.byte d) := by
  simp [wordsOf, crcCommands]

theorem assemble_crc {ns : List Nat} (h : ∀ n ∈ ns, n < 2 ^ 8) :
    assemble (.crc ns) = .ok (encode .init :: ns.map fun n => encode (.byte (BitVec.ofNat 8 n))) := by
  have hwf : (AsmLine.crc ns).wellFormed = true := List.all_eq_true.mpr fun n hn => decide_eq_true (h n hn)
  have hwords : assemble (.crc ns) = .ok (wordsOf (crcCommands (ns.map (BitVec.ofNat 8)))) := if_pos hwf
  rw [hwords, wordsOf_crcCommands, List.map_map]
  rfl

theorem assemble_crc_refused {ns : List Nat} (h : ∃ n ∈ ns, 2 ^ 8 ≤ n) :
    assemble (.crc ns) = .error .literalOutOfRange := by
  refine if_neg fun hwf => ?_
  obtain ⟨n, hn, hbig⟩ := h
  exact absurd (of_decide_eq_true (List.all_eq_true.mp hwf n hn)) (Nat.not_lt.mpr hbig)

/-- Settles O49: each literal's range is the assembler's one test of its line. -/
theorem assemblerExpansion : Obligations.AssemblerExpansion :=
  ⟨rfl, rfl, fun _ => assemble_byte, fun _ => assemble_byte_refused, fun _ => assemble_check,
    fun _ => assemble_check_refused, fun _ => assemble_word, fun _ => assemble_word_refused,
    fun _ h => ⟨_, assemble_crc h, by rw [List.length_cons, List.length_map], rfl⟩, fun _ => assemble_crc_refused⟩

end Sys2Proof.Machine
end

section
/-! Error patterns (41_detector.md section 3): a pattern acts on the checksum by its own `Crc0`, and the generator's
pattern, wherever it stands, has none. -/

namespace Sys2Proof.Machine

/-- Settles O52: the message drops out of the comparison. -/
theorem detectedExactlyByCrcOfPattern : Obligations.DetectedExactlyByCrcOfPattern := fun _ _ =>
  isCorrupted_xorPayload

/-! Zero bytes around a pattern. -/

theorem xorBytes_nil (xs : List Byte) : xorBytes xs [] = xs := by
  cases xs <;> rfl

theorem xorBytes_zeros (xs : List Byte) (n : Nat) : xorBytes xs (List.replicate n 0x00#8) = xs := by
  induction xs generalizing n with
  | nil => rfl
  | cons x xs ih =>
    cases n with
    | zero => rfl
    | succ n => rw [List.replicate_succ, xorBytes, ih, BitVec.xor_zero]

theorem xorBytes_append_zeros (xs e : List Byte) (n : Nat) :
    xorBytes xs (e ++ List.replicate n 0x00#8) = xorBytes xs e := by
  induction xs generalizing e with
  | nil => rfl
  | cons x xs ih =>
    cases e with
    | nil => rw [List.nil_append, xorBytes_zeros, xorBytes_nil]
    | cons y e => rw [List.cons_append, xorBytes, xorBytes, ih]

/-- A pattern's bytes count as 0x00 past its end. -/
theorem xorPayload_append_zeros (p : Packet) (e : List Byte) (n : Nat) :
    xorPayload p (e ++ List.replicate n 0x00#8) = xorPayload p e := by
  simp only [xorPayload, xorBytes_append_zeros]

theorem crcFrom_zeros (n : Nat) : crcFrom 0x0000#16 (List.replicate n 0x00#8) = 0x0000#16 := by
  induction n with
  | zero => rfl
  | succ n ih => rw [List.replicate_succ, crcFrom_cons, byteStep_zero_zero, ih]

/-! The generator's pattern. -/

/-- The generator's pattern (90_conflicts.md C1). -/
def generatorBytes : List Byte := [0x01#8, 0x10#8, 0x21#8]

/-- The generator's pattern `k` bytes in, with `n` bytes after it. -/
def generatorPattern (k n : Nat) : List Byte := List.replicate k 0x00#8 ++ generatorBytes ++ List.replicate n 0x00#8

theorem generatorPattern_length (k n : Nat) : (generatorPattern k n).length = k + 3 + n := by
  simp only [generatorPattern, generatorBytes, List.length_append, List.length_replicate, List.length_cons,
    List.length_nil]

theorem generatorPattern_getElem? (k n : Nat) : (generatorPattern k n)[k]? = some 0x01#8 := by
  simp [generatorPattern, generatorBytes]

/-- A zero register meets the generator and is a zero register again. -/
theorem crc0_generatorPattern (k n : Nat) : crc0 (generatorPattern k n) = 0x0000#16 := by
  have hgen : crcFrom 0x0000#16 generatorBytes = 0x0000#16 := by decide +kernel
  rw [crc0, generatorPattern, crcFrom_append, crcFrom_append, crcFrom_zeros, hgen, crcFrom_zeros]

/-! A pattern of the packet's length. -/

section fullPattern

variable {p : Packet} {e : List Byte} (hp : p.wellFormed = true) (he : e.length = p.length.toNat)
include hp he

theorem computeChecksum_xorPayload :
    computeChecksum (packetBytes (xorPayload p e)) = computeChecksum (packetBytes p) ^^^ crc0 e := by
  obtain ⟨-, -, hlinear⟩ := engineIsLinear
  rw [packetBytes_xorPayload he, hlinear _ _ ((packetBytes_length hp).trans he.symm)]

theorem isCorrupted_xorPayload_of_crc0_eq_zero (hcrc : crc0 e = 0x0000#16) :
    isCorrupted (xorPayload p e) = isCorrupted p := by
  rw [isCorrupted_wellFormed (p := xorPayload p e) hp, isCorrupted_wellFormed hp, computeChecksum_xorPayload hp he,
    hcrc, BitVec.xor_zero, xorPayload_storedChecksum]

/-- A pattern with a byte other than 0x00 changes that byte of the packet. -/
theorem packetBytes_xorPayload_ne {k : Nat} {c : Byte} (hk : e[k]? = some c) (hc : c ≠ 0x00#8) :
    packetBytes (xorPayload p e) ≠ packetBytes p := by
  intro h
  obtain ⟨hlt, -⟩ := List.getElem?_eq_some_iff.mp hk
  have hget : (packetBytes p)[k]? = some ((packetBytes p)[k]'(by rwa [packetBytes_length hp, ← he])) :=
    List.getElem?_eq_getElem _
  have hbyte := congrArg (·[k]?) h
  simp only [packetBytes_xorPayload he, List.getElem?_zipWith, hk, hget, Option.some.injEq] at hbyte
  exact hc (BitVec.xor_right_inj _ |>.mp (hbyte.trans BitVec.xor_zero.symm))

end fullPattern

/-- Settles O53: the generator's pattern, filled up to the packet's length, has `Crc0` 0 and is not all zero. -/
theorem generatorPatternUndetected : Obligations.GeneratorPatternUndetected := by
  intro p k hp hk q
  obtain ⟨n, hn⟩ := Nat.exists_eq_add_of_le hk
  have he : (generatorPattern k n).length = p.length.toNat := (generatorPattern_length k n).trans hn.symm
  have hq : q = xorPayload p (generatorPattern k n) := (xorPayload_append_zeros p _ n).symm
  rw [hq]
  exact ⟨isCorrupted_xorPayload_of_crc0_eq_zero hp he (crc0_generatorPattern k n),
    packetBytes_xorPayload_ne hp he (generatorPattern_getElem? k n) (by decide)⟩

end Sys2Proof.Machine
end
